-- ==== Sys2Proof/Word.lean ====
section
/-! DEFINITION. The machine's word, byte and register-number types.

`XLEN` is 32 or 64 (00_scope.md section 4). A register is held in 64 bits whatever `XLEN` is; an RV32 machine
uses the low 32 of them (log entry 2). -/

namespace Sys2Proof

/-- A register, an address while it is computed, or a datum on its way to memory. -/
abbrev Word := BitVec 64

/-- The smallest addressable unit of memory. -/
abbrev Byte := BitVec 8

/-- A register field of an encoding, 5 bits wide (30_encoding.md R81 to R83). -/
abbrev RegIdx := BitVec 5

end Sys2Proof
end

