-- ==== Sys2Proof/Config.lean ====
section
/-! DEFINITION. The implementation parameters of 00_scope.md section 4, and the free values.

"Every parameter below is an argument of the model." They are gathered in `Params`, a constant record that State
carries, so a statement about every state is a statement about every machine the spec admits (log entry 1). The
platform functions `Translate`, `PMP` and `PMA` are State's own tables (log entries 7 and 8). -/

namespace Sys2Proof.Config

/-- `XLEN`: the width of the integer registers, of `ssp` and of a shadow stack entry. -/
inductive Xlen
  | rv32
  | rv64
deriving DecidableEq, Repr

/-- `AMO_MISALIGNED_EXC`: what a misaligned `SSAMOSWAP` raises (20_memory.md R45). -/
inductive AmoMisaligned
  | accessFault
  | addressMisaligned
deriving DecidableEq, Repr

/-- Which fault is reported when several of the conditions of 20_memory.md R52 fail together. -/
inductive FaultReport
  /-- The first in the order (a) to (j), as 60_exceptions.md R166 orders them. -/
  | firstInOrder
  /-- Any one that applies: every behaviour the source allows (92_eei_decisions.md D11, 93 U13). -/
  | anyApplicable
deriving DecidableEq, Repr

/-- The implementation parameters: fixed for a machine, read by every step and written by none. -/
structure Params where
  /-- `XLEN`, the same in all modes and constant for a run (92 D17). -/
  xlen : Xlen
  /-- `HAS_S`: S-mode is implemented. -/
  hasS : Bool
  /-- `HAS_H`: the hypervisor extension is implemented. -/
  hasH : Bool
  /-- `SSP_BIT2_RO_ZERO`: bit 2 of `ssp` is read-only zero (10_state.md R13). -/
  sspBit2RoZero : Bool
  /-- `AMO_MISALIGNED_EXC`. -/
  amoMisaligned : AmoMisaligned
  /-- `XTVAL_ADDR`: trap values are informative rather than zero (92 D10). -/
  xtvalAddr : Bool
  /-- With `XTVAL_ADDR`, causes 2 and 22 record the instruction word rather than zero (60 R169). -/
  xtvalInsn : Bool
  /-- The choice of 92 D11. -/
  faultReport : FaultReport
  /-- The implementation-defined reset vector (70 R191). -/
  resetVector : Word
deriving DecidableEq, Repr

/-- What the parameters owe each other: the H extension stands on S-mode, and bit 2 of `ssp` can be read-only zero
only where `XLEN` is never 32 (10 R13); the reset vector is an `XLEN`-bit even address. -/
abbrev Params.Wf (p : Params) : Prop :=
  (p.hasH = true → p.hasS = true) ∧ (p.xlen = .rv32 → p.sspBit2RoZero = false) ∧
    p.resetVector.toNat < (match p.xlen with | .rv32 => 2 ^ 32 | .rv64 => 2 ^ 64) ∧
    p.resetVector.toNat % 2 = 0

/-- The one concrete machine 92 D1 recommends (RV64, S-mode, no hypervisor) with the other recommended values
(D10, D11, D17), on the illustrative platform of D21. DESIGN CHOICE (log entries 1 and 5). -/
def recommended : Params where
  xlen := .rv64
  hasS := true
  hasH := false
  sspBit2RoZero := true
  amoMisaligned := .accessFault
  xtvalAddr := true
  xtvalInsn := true
  faultReport := .firstInOrder
  resetVector := 0x80000000

/-- Free value: the fault drawn among those that apply (92 D11, D18; 93 U13, U20). -/
opaque faultChoice : Nat → Nat

/-- Free value: what a stored `SSE` bit holds once `menvcfg.SSE` has been set again (10 R23, 92 D15, 93 U11). -/
opaque reenabledSse : Nat → Bool

/-- Free value: the second trap value a guest-page fault records (60 R169; 91 N11: described in no source). -/
opaque guestTrapValue : Nat → Word

end Sys2Proof.Config
end

