-- ==== Sys2Proof/Syntax.lean ====
section
/-! DEFINITION. The instructions: one constructor per row of spec/opcode_table.json. -/

namespace Sys2Proof

/-- The 19 rows of the opcode table. Operand order is the assembler's (30_encoding.md R93). -/
inductive Instr
  /-- `SSPUSH x1` (40 R101). -/
  | sspushX1
  /-- `SSPUSH x5` (40 R102). -/
  | sspushX5
  /-- `C.SSPUSH x1` (40 R106). -/
  | cSspushX1
  /-- `SSPOPCHK x1` (41 R111). -/
  | sspopchkX1
  /-- `SSPOPCHK x5` (41 R112). -/
  | sspopchkX5
  /-- `C.SSPOPCHK x5` (41 R113). -/
  | cSspopchkX5
  /-- `SSRDP rd`, `rd` not `x0` (42 R120). -/
  | ssrdp (rd : RegIdx)
  /-- `SSAMOSWAP.W rd, rs2, (rs1)` (43 R125). -/
  | ssamoswapW (rd rs2 rs1 : RegIdx) (aq rl : Bool)
  /-- `SSAMOSWAP.D rd, rs2, (rs1)` (43 R128). -/
  | ssamoswapD (rd rs2 rs1 : RegIdx) (aq rl : Bool)
  /-- `MOP.RR.7 rd, rs1, rs2` (44 R135). -/
  | mopRr7 (rd rs1 rs2 : RegIdx)
  /-- `MOP.R.28 rd, rs1` (44 R136). -/
  | mopR28 (rd rs1 : RegIdx)
  /-- `C.MOP.1` (44 R137). -/
  | cMop1
  /-- `C.MOP.5` (44 R138). -/
  | cMop5
  /-- `CSRRW rd, ssp, rs1` (45 R147). -/
  | csrrwSsp (rd rs1 : RegIdx)
  /-- `CSRRS rd, ssp, rs1` (45 R148). -/
  | csrrsSsp (rd rs1 : RegIdx)
  /-- `CSRRC rd, ssp, rs1` (45 R149). -/
  | csrrcSsp (rd rs1 : RegIdx)
  /-- `CSRRWI rd, ssp, uimm` (45 R150). -/
  | csrrwiSsp (rd uimm : RegIdx)
  /-- `CSRRSI rd, ssp, uimm` (45 R151). -/
  | csrrsiSsp (rd uimm : RegIdx)
  /-- `CSRRCI rd, ssp, uimm` (45 R152). -/
  | csrrciSsp (rd uimm : RegIdx)
deriving DecidableEq, Repr

end Sys2Proof
end

