-- ==== Sys2Proof/WellFormed.lean ====
section
/-! DEFINITION. Which terms of `Instr` are instructions, and under which setting of `xSSE` a word is read as one. -/

namespace Sys2Proof

/-- "Encoding `rd` as `x0` is not supported for `SSRDP`" (30_encoding.md R89). Every other operand is any 5-bit
field (30 R83, R88, R95). -/
def WellFormed : Instr → Bool
  | .ssrdp rd => rd != 0
  | .sspushX1 | .sspushX5 | .cSspushX1 | .sspopchkX1 | .sspopchkX5 | .cSspopchkX5 => true
  | .ssamoswapW _ _ _ _ _ | .ssamoswapD _ _ _ _ _ => true
  | .mopRr7 _ _ _ | .mopR28 _ _ | .cMop1 | .cMop5 => true
  | .csrrwSsp _ _ | .csrrsSsp _ _ | .csrrcSsp _ _ => true
  | .csrrwiSsp _ _ | .csrrsiSsp _ _ | .csrrciSsp _ _ => true

/-- The two columns of 30 R87: a word that Zicfiss utilizes stands for its Zicfiss instruction where `xSSE` = 1
(`active`) and for the Zimop or Zcmop instruction where `xSSE` = 0. Every other word has one meaning (R88). -/
def ReadsUnder (active : Bool) : Instr → Bool
  | .sspushX1 | .sspushX5 | .cSspushX1 | .sspopchkX1 | .sspopchkX5 | .cSspopchkX5 => active
  | .ssrdp _ => active
  | .cMop1 | .cMop5 => !active
  | .mopRr7 rd rs1 rs2 => !(active && rd == 0 && rs1 == 0 && (rs2 == 1 || rs2 == 5))
  | .mopR28 rd rs1 => !(active && ((rd == 0 && (rs1 == 1 || rs1 == 5)) || (rd != 0 && rs1 == 0)))
  | .ssamoswapW _ _ _ _ _ | .ssamoswapD _ _ _ _ _ => true
  | .csrrwSsp _ _ | .csrrsSsp _ _ | .csrrcSsp _ _ => true
  | .csrrwiSsp _ _ | .csrrsiSsp _ _ | .csrrciSsp _ _ => true

end Sys2Proof
end

