-- ==== Sys2Proof/Decode.lean ====
section
/-! DEFINITION. The decoder, total on any bytes and rejecting by name, and the encoder.

Both are written from 30_encoding.md: formats R81 to R84 and R95, major opcodes R85, length R80, meaning by `xSSE`
R87, unused code points R88 and R89. -/

namespace Sys2Proof

/-- Why a word is not one of this spec's instructions. The base integer ISA, the rest of Zimop, Zcmop, Zicsr and the
A extension are excluded by 00_scope.md section 3; nothing here says what such a word does. -/
inductive Reject
  /-- Fewer bytes than the instruction's first parcel announces (30 R80). -/
  | truncated
  /-- A 16-bit instruction other than the two halfwords of 30 R84. -/
  | otherCompressed
  /-- A major opcode other than `SYSTEM` and `AMO` (30 R85). -/
  | otherMajorOpcode
  /-- Under `SYSTEM`, `funct3` = 100: a May-Be-Operation other than `MOP.RR.7` and `MOP.R.28`. -/
  | otherMop
  /-- Under `SYSTEM`: a CSR instruction that names a CSR other than 0x011, or `funct3` = 000. -/
  | otherSystem
  /-- Under `AMO`: `funct5` other than 01001. -/
  | otherAmo
  /-- Under `AMO`, `funct5` = 01001: `funct3` other than 010 and 011 (93 U16). -/
  | otherAmoWidth
deriving DecidableEq, Repr

/-- What the decoder answers: an instruction and the bytes after it, or why there is none. -/
inductive Decoded
  | ok (i : Instr) (rest : List Byte)
  | reject (why : Reject)
deriving DecidableEq, Repr

/-! ## Fields of an instruction word -/

def fieldOpcode (w : BitVec 32) : BitVec 7 := w.extractLsb' 0 7
def fieldRd (w : BitVec 32) : RegIdx := w.extractLsb' 7 5
def fieldFunct3 (w : BitVec 32) : BitVec 3 := w.extractLsb' 12 3
def fieldRs1 (w : BitVec 32) : RegIdx := w.extractLsb' 15 5
def fieldRs2 (w : BitVec 32) : RegIdx := w.extractLsb' 20 5
def fieldFunct7 (w : BitVec 32) : BitVec 7 := w.extractLsb' 25 7
def fieldFunct12 (w : BitVec 32) : BitVec 12 := w.extractLsb' 20 12
def fieldFunct5 (w : BitVec 32) : BitVec 5 := w.extractLsb' 27 5
/-- `aq` is bit 26 (30 R83). -/
def fieldAq (w : BitVec 32) : Bool := w.getLsbD 26
/-- `rl` is bit 25 (30 R83). -/
def fieldRl (w : BitVec 32) : Bool := w.getLsbD 25

/-- `SYSTEM` = 1110011b (30 R85). -/
def opcodeSystem : BitVec 7 := 0b1110011
/-- `AMO` = 0101111b (30 R85). -/
def opcodeAmo : BitVec 7 := 0b0101111
/-- The CSR number of `ssp`, 0x011 (10 R13). -/
def csrSspNumber : BitVec 12 := 0x011
/-- The seven bits that select `MOP.RR.7` (30 R81). -/
def funct7MopRr7 : BitVec 7 := 0b1100111
/-- The twelve bits that select `MOP.R.28` (30 R82). -/
def funct12MopR28 : BitVec 12 := 0b110011011100
/-- `funct5` of `SSAMOSWAP.W/D` (30 R83). -/
def funct5SsAmoSwap : BitVec 5 := 0b01001
/-- `C.MOP.1`, `C.SSPUSH x1` (30 R84). -/
def halfCMop1 : BitVec 16 := 0b0110000010000001
/-- `C.MOP.5`, `C.SSPOPCHK x5` (30 R84). -/
def halfCMop5 : BitVec 16 := 0b0110001010000001

/-! ## The decoder -/

/-- A `MOP.RR.7` word: the two code points Zicfiss utilizes first (30 R87), then the generic row (R88). -/
def decodeMopRr7 (active : Bool) (rd rs1 rs2 : RegIdx) : Instr :=
  if active && rd == 0 && rs1 == 0 && rs2 == 1 then .sspushX1
  else if active && rd == 0 && rs1 == 0 && rs2 == 5 then .sspushX5
  else .mopRr7 rd rs1 rs2

/-- A `MOP.R.28` word: `SSPOPCHK` and `SSRDP` first (30 R87), then the generic row (R88, R89). -/
def decodeMopR28 (active : Bool) (rd rs1 : RegIdx) : Instr :=
  if active && rd == 0 && rs1 == 1 then .sspopchkX1
  else if active && rd == 0 && rs1 == 5 then .sspopchkX5
  else if active && rd != 0 && rs1 == 0 then .ssrdp rd
  else .mopR28 rd rs1

/-- A CSR instruction on `ssp`, by `funct3` (30 R95). -/
def decodeCsrSsp (funct3 : BitVec 3) (rd rs1 : RegIdx) : Except Reject Instr :=
  if funct3 = 0b001 then .ok (.csrrwSsp rd rs1)
  else if funct3 = 0b010 then .ok (.csrrsSsp rd rs1)
  else if funct3 = 0b011 then .ok (.csrrcSsp rd rs1)
  else if funct3 = 0b101 then .ok (.csrrwiSsp rd rs1)
  else if funct3 = 0b110 then .ok (.csrrsiSsp rd rs1)
  else if funct3 = 0b111 then .ok (.csrrciSsp rd rs1)
  else .error .otherSystem

/-- A 32-bit instruction. -/
def decode32 (active : Bool) (w : BitVec 32) : Except Reject Instr :=
  if fieldOpcode w = opcodeSystem then
    if fieldFunct3 w = 0b100 then
      if fieldFunct7 w = funct7MopRr7 then .ok (decodeMopRr7 active (fieldRd w) (fieldRs1 w) (fieldRs2 w))
      else if fieldFunct12 w = funct12MopR28 then .ok (decodeMopR28 active (fieldRd w) (fieldRs1 w))
      else .error .otherMop
    else if fieldFunct12 w = csrSspNumber then decodeCsrSsp (fieldFunct3 w) (fieldRd w) (fieldRs1 w)
    else .error .otherSystem
  else if fieldOpcode w = opcodeAmo then
    if fieldFunct5 w = funct5SsAmoSwap then
      if fieldFunct3 w = 0b010 then
        .ok (.ssamoswapW (fieldRd w) (fieldRs2 w) (fieldRs1 w) (fieldAq w) (fieldRl w))
      else if fieldFunct3 w = 0b011 then
        .ok (.ssamoswapD (fieldRd w) (fieldRs2 w) (fieldRs1 w) (fieldAq w) (fieldRl w))
      else .error .otherAmoWidth
    else .error .otherAmo
  else .error .otherMajorOpcode

/-- A 16-bit instruction (30 R84, R87). -/
def decode16 (active : Bool) (h : BitVec 16) : Except Reject Instr :=
  if h = halfCMop1 then .ok (if active then .cSspushX1 else .cMop1)
  else if h = halfCMop5 then .ok (if active then .cSspopchkX5 else .cMop5)
  else .error .otherCompressed

/-- Two bytes in the order they lie in memory as a halfword: instruction fetch is little-endian (20 R42). -/
def halfOfBytes (b0 b1 : Byte) : BitVec 16 := b1 ++ b0

/-- Four bytes in the order they lie in memory as a word (20 R42). -/
def wordOfBytes (b0 b1 b2 b3 : Byte) : BitVec 32 := halfOfBytes b2 b3 ++ halfOfBytes b0 b1

/-- The two low bits of the first parcel are `11b` for a 32-bit instruction and anything else for a 16-bit one
(30 R80). -/
def isLong (h : BitVec 16) : Bool := h.extractLsb' 0 2 == 0b11

/-- Decode the first instruction of `bytes` with `xSSE` = `active`, and return the bytes after it. -/
def decode (active : Bool) : List Byte → Decoded
  | b0 :: b1 :: rest =>
    if isLong (halfOfBytes b0 b1) then
      match rest with
      | b2 :: b3 :: rest' =>
        match decode32 active (wordOfBytes b0 b1 b2 b3) with
        | .ok i => .ok i rest'
        | .error r => .reject r
      | _ => .reject .truncated
    else
      match decode16 active (halfOfBytes b0 b1) with
      | .ok i => .ok i rest
      | .error r => .reject r
  | _ => .reject .truncated

/-! ## The encoder -/

/-- Format `MOP.RR` (30 R81): `funct7`, `rs2`, `rs1`, 100, `rd`, `SYSTEM`. -/
def encodeMopRr (rd rs1 rs2 : RegIdx) : BitVec 32 :=
  funct7MopRr7 ++ rs2 ++ rs1 ++ (0b100 : BitVec 3) ++ rd ++ opcodeSystem

/-- Format `MOP.R` (30 R82): `funct12`, `rs1`, 100, `rd`, `SYSTEM`. -/
def encodeMopR (rd rs1 : RegIdx) : BitVec 32 :=
  funct12MopR28 ++ rs1 ++ (0b100 : BitVec 3) ++ rd ++ opcodeSystem

/-- Format `AMO` (30 R83): `funct5`, `aq`, `rl`, `rs2`, `rs1`, `funct3`, `rd`, `AMO`. -/
def encodeAmo (funct3 : BitVec 3) (rd rs2 rs1 : RegIdx) (aq rl : Bool) : BitVec 32 :=
  funct5SsAmoSwap ++ BitVec.ofBool aq ++ BitVec.ofBool rl ++ rs2 ++ rs1 ++ funct3 ++ rd ++ opcodeAmo

/-- The Zicsr format with `csr` = 0x011 (30 R95). -/
def encodeCsrSsp (funct3 : BitVec 3) (rd rs1 : RegIdx) : BitVec 32 :=
  csrSspNumber ++ rs1 ++ funct3 ++ rd ++ opcodeSystem

/-- The instruction's length in bytes (30 R80). -/
def ilen : Instr → Nat
  | .cSspushX1 | .cSspopchkX5 | .cMop1 | .cMop5 => 2
  | .sspushX1 | .sspushX5 | .sspopchkX1 | .sspopchkX5 | .ssrdp _ => 4
  | .ssamoswapW _ _ _ _ _ | .ssamoswapD _ _ _ _ _ | .mopRr7 _ _ _ | .mopR28 _ _ => 4
  | .csrrwSsp _ _ | .csrrsSsp _ _ | .csrrcSsp _ _ => 4
  | .csrrwiSsp _ _ | .csrrsiSsp _ _ | .csrrciSsp _ _ => 4

/-- The instruction's bits; a 16-bit instruction stands in bits 15:0. -/
def encodeWord : Instr → BitVec 32
  | .sspushX1 => encodeMopRr 0 0 1
  | .sspushX5 => encodeMopRr 0 0 5
  | .cSspushX1 | .cMop1 => (0 : BitVec 16) ++ halfCMop1
  | .sspopchkX1 => encodeMopR 0 1
  | .sspopchkX5 => encodeMopR 0 5
  | .cSspopchkX5 | .cMop5 => (0 : BitVec 16) ++ halfCMop5
  | .ssrdp rd => encodeMopR rd 0
  | .ssamoswapW rd rs2 rs1 aq rl => encodeAmo 0b010 rd rs2 rs1 aq rl
  | .ssamoswapD rd rs2 rs1 aq rl => encodeAmo 0b011 rd rs2 rs1 aq rl
  | .mopRr7 rd rs1 rs2 => encodeMopRr rd rs1 rs2
  | .mopR28 rd rs1 => encodeMopR rd rs1
  | .csrrwSsp rd rs1 => encodeCsrSsp 0b001 rd rs1
  | .csrrsSsp rd rs1 => encodeCsrSsp 0b010 rd rs1
  | .csrrcSsp rd rs1 => encodeCsrSsp 0b011 rd rs1
  | .csrrwiSsp rd uimm => encodeCsrSsp 0b101 rd uimm
  | .csrrsiSsp rd uimm => encodeCsrSsp 0b110 rd uimm
  | .csrrciSsp rd uimm => encodeCsrSsp 0b111 rd uimm

/-- The first `n` bytes of a word, the least significant first (20 R42). -/
def bytesOfWord : Nat → BitVec 32 → List Byte
  | 0, _ => []
  | n + 1, w => w.extractLsb' 0 8 :: bytesOfWord n (w >>> 8)

/-- The bytes of an instruction as they lie in memory. -/
def encode (i : Instr) : List Byte := bytesOfWord (ilen i) (encodeWord i)

/-! ## The host's question -/

/-- The instruction read from a word of `nbits` bits, numbered as the opcode table numbers them, with `xSSE` = 1:
the table's rows are tried in its own order, the Zicfiss rows first (30 R88; log entry 19). -/
def decodeTableWord (nbits w : Nat) : Option Instr :=
  match decode true (bytesOfWord 4 (BitVec.ofNat 32 (w % 2 ^ nbits))) with
  | .ok i _ => some i
  | .reject _ => none

end Sys2Proof
end

