-- ==== Sys2Proof/Machine/State.lean ====
section
/-! DEFINITION. The machine's state, the ways a step can stop, and the state after reset. -/

namespace Sys2Proof.Machine

open Sys2Proof.Config

/-- The privilege modes (10_state.md R25). With the virtualization mode `v` they give M, S or HS, VS, U and VU. -/
inductive Priv
  | user
  | supervisor
  | machine
deriving DecidableEq, Repr

/-- `satp.MODE`, `vsatp.MODE` and the mode of `hgatp`, of which Zicfiss asks only whether they are `Bare`
(10 R26, 20_memory.md R51). -/
inductive TransMode
  | bare
  | paged
deriving DecidableEq, Repr

/-- The synchronous exceptions: those of 60_exceptions.md R160, and the base's own fetch and load faults that a fetch
or an ordinary load can meet on the way (20 R49, R60; 93 U1, U2). -/
inductive Exc
  | softwareCheck
  | storeAccessFault
  | storePageFault
  | storeGuestPageFault
  | storeMisaligned
  | loadAccessFault
  | loadPageFault
  | loadGuestPageFault
  | instrAccessFault
  | instrPageFault
  | instrGuestPageFault
  | illegalInstruction
  | virtualInstruction
deriving DecidableEq, Repr

/-- Read, write and execute permission. -/
structure Perm where
  r : Bool
  w : Bool
  x : Bool
deriving DecidableEq, Repr

/-- The leaf encodings of `pte.xwr`; `000b` is never a leaf (20 R53, 92 D18). -/
inductive PageType
  /-- `001b` -/
  | readOnly
  /-- `010b`, the SS page (20 R48) -/
  | shadowStack
  /-- `011b` -/
  | readWrite
  /-- `100b` -/
  | executeOnly
  /-- `101b` -/
  | readExecute
  /-- `110b`, reserved in the base -/
  | writeExecute
  /-- `111b` -/
  | readWriteExecute
deriving DecidableEq, Repr

/-- Why a walk failed (20 R50): `page` for an invalid, non-resident, reserved or misaligned entry, `access` for an
implicit access that faulted under PMP or PMA, `guestPage` for a G-stage fault on the final access, and the two
implicit kinds for a G-stage fault on a VS-stage page-table access, by what that access did (60 R165). -/
inductive WalkFault
  | page
  | access
  | guestPage
  | implicitGuestRead
  | implicitGuestWrite
deriving DecidableEq, Repr

/-- What kind of explicit access or fetch a walk is made for. The first three are the base's; the others are the
operations of 20 R52. -/
inductive AccessKind
  | fetch
  | load
  | store
  | ssPush
  | ssPopChk
  | ssAmoSwap
deriving DecidableEq, Repr

/-- The page table a mapping belongs to: rooted at `satp`, rooted at `vsatp`, or G-stage only, for accesses with V=1
while `vsatp.MODE` is `Bare` (20 R49). -/
inductive Stage
  | single
  | vs
  | gOnly
deriving DecidableEq, Repr

/-- What a walk finds: a leaf with its `xwr`, `U` bit, G-stage permissions and physical base, or a failure. -/
inductive MapEntry
  | leaf (page : PageType) (u : Bool) (g : Perm) (pa : Nat)
  | fault (f : WalkFault)
deriving DecidableEq, Repr

/-- One line of the `Translate` parameter (20 R50): the virtual addresses from `base` on, `size` of them, walked for
one of `kinds`. Accessed and dirty bits are `Translate`'s own (92 D19), hence `kinds`. -/
structure Mapping where
  stage : Stage
  base : Nat
  size : Nat
  kinds : List AccessKind
  entry : MapEntry
deriving DecidableEq, Repr

/-- One line of the `PMP` parameter: what S and U may do to these physical addresses, and what M may. -/
structure PmpRegion where
  base : Nat
  size : Nat
  lower : Perm
  machine : Perm
deriving DecidableEq, Repr

/-- One line of the `PMA` parameter (20 R47, R57). -/
structure PmaRegion where
  base : Nat
  size : Nat
  idempotent : Bool
  amoswap : Bool
deriving DecidableEq, Repr

/-- The fields of `mstatus`, `sstatus` being a view of them, that a rule of this spec reads or writes
(60 R170, R171; 20 R54; 92 D27). -/
structure MStatus where
  mie : Bool
  mpie : Bool
  mpp : Priv
  mpv : Bool
  mprv : Bool
  sie : Bool
  spie : Bool
  spp : Bool
  sum : Bool
  mxr : Bool
deriving DecidableEq, Repr

/-- The fields of `vsstatus` (60 R170, R171; 20 R54). -/
structure VsStatus where
  sie : Bool
  spie : Bool
  spp : Bool
  sum : Bool
  mxr : Bool
deriving DecidableEq, Repr

/-- The trap registers of one mode: `xepc`, `xcause`, `xtval`, `xtvec` (60 R170). -/
structure TrapRegs where
  epc : Word
  cause : Word
  tval : Word
  tvec : Word
deriving DecidableEq, Repr

/-- Physical memory: address and byte, addresses strictly rising, no entry equal to what an unlisted address reads
as (`Memory.wf`). -/
abbrev Memory := List Host.Cell

/-- Everything the spec gives the hart, with the platform's tables and the model's own counter of draws. -/
structure State where
  /-- The implementation parameters: read by every step, written by none. -/
  cfg : Params
  /-- The integer registers (10 R10). -/
  x : Vector Word 32
  /-- The program counter (10 R12). -/
  pc : Word
  /-- The shadow stack pointer, CSR 0x011 (10 R13). -/
  ssp : Word
  /-- The current privilege mode (10 R25). -/
  priv : Priv
  /-- The current virtualization mode (10 R25). -/
  v : Bool
  /-- 10 R15. -/
  menvcfg : BitVec 64
  /-- 10 R16. -/
  senvcfg : BitVec 64
  /-- 10 R17. -/
  henvcfg : BitVec 64
  mstatus : MStatus
  /-- `hstatus.SPV` (60 R170). -/
  hstatusSpv : Bool
  vsstatus : VsStatus
  /-- `mepc`, `mcause`, `mtval`, `mtvec`. -/
  mTrap : TrapRegs
  /-- `sepc`, `scause`, `stval`, `stvec`. -/
  sTrap : TrapRegs
  /-- `vsepc`, `vscause`, `vstval`, `vstvec`. -/
  vsTrap : TrapRegs
  /-- The second trap-value register of M-mode (60 R169). -/
  mtval2 : Word
  /-- The second trap-value register of HS-mode (60 R169). -/
  htval : Word
  /-- 60 R173. -/
  medeleg : BitVec 64
  /-- 60 R173. -/
  hedeleg : BitVec 64
  /-- `satp.MODE` (20 R51). -/
  satpMode : TransMode
  /-- `vsatp.MODE` (20 R51). -/
  vsatpMode : TransMode
  /-- Whether G-stage translation is active (20 R55). -/
  hgatpMode : TransMode
  /-- `Translate` (20 R50). -/
  mappings : List Mapping
  /-- `PMP` (20 R56). -/
  pmp : List PmpRegion
  /-- `PMA` (20 R47, R57). -/
  pma : List PmaRegion
  /-- Physical memory. -/
  mem : Memory
  /-- The MODEL's own field: how many free values have been drawn (log entry 9). -/
  draws : Nat
deriving DecidableEq, Repr

/-- The reasons the machine stops with a fault: none. The spec names no condition that stops the hart; every
exceptional condition is an exception, and taking it is a next state (60 R170). -/
inductive Fault
deriving DecidableEq, Repr

/-- The reasons a step has no meaning. -/
inductive Refusal
  /-- Raised by `exec` for a constructor without a meaning; no arm raises it. Safe: the run ends. -/
  | notModelled (mnemonic : String)
  /-- Raised by `step` when the bytes at `pc` are no instruction to which this spec gives an effect: the rest of the
  base ISA and of the other extensions is excluded by 00_scope.md section 3, a `funct3` other than 010 and 011 beside
  `SSAMOSWAP` by 30_encoding.md R90 and 93 U16. Safe: the run ends where the hardware may go on. -/
  | outsideSpec (why : Reject)
deriving DecidableEq, Repr

/-- Permission for everything. -/
def Perm.all : Perm := ⟨true, true, true⟩

/-- The state after reset of the machine with parameters `p`: M-mode at the reset vector with interrupts disabled
(70_reset_and_hazards.md R191) and the read-only-zero bits of `ssp` zero (R190). Every other value is the model's:
registers zero, translation `Bare`, PMP and PMA granting everything (log entries 3 to 7). -/
def State.resetWith (p : Params) : State where
  cfg := p
  x := Vector.replicate 32 0
  pc := p.resetVector
  ssp := 0
  priv := .machine
  v := false
  menvcfg := 0
  senvcfg := 0
  henvcfg := 0
  mstatus := ⟨false, false, .user, false, false, false, false, false, false, false⟩
  hstatusSpv := false
  vsstatus := ⟨false, false, false, false, false⟩
  mTrap := ⟨0, 0, 0, 0⟩
  sTrap := ⟨0, 0, 0, 0⟩
  vsTrap := ⟨0, 0, 0, 0⟩
  mtval2 := 0
  htval := 0
  medeleg := 0
  hedeleg := 0
  satpMode := .bare
  vsatpMode := .bare
  hgatpMode := .bare
  mappings := []
  pmp := [⟨0, 2 ^ 64, Perm.all, Perm.all⟩]
  pma := [⟨0, 2 ^ 64, true, true⟩]
  mem := []
  draws := 0

/-- The machine right after reset, with the parameters 92 D1 recommends. -/
def State.reset : State := State.resetWith recommended

end Sys2Proof.Machine
end

