-- ==== Sys2Proof/Machine/Operands.lean ====
section
/-! DEFINITION. Widths, extensions and the legal values of `ssp`: the operand forms of 30_encoding.md R86.

Register operands are read and written through `State.readX` and `State.writeX` (Ops.lean); the forms here are the
`XLEN`-wide value, the word operand of `SSAMOSWAP.W`, the 5-bit immediate of the CSR instructions, and an address. -/

namespace Sys2Proof.Machine

open Sys2Proof.Config

/-- `XLEN/8`: the bytes of a shadow stack entry (20 R43). -/
def xlenBytes : Xlen → Nat
  | .rv32 => 4
  | .rv64 => 8

/-- `XLEN`. -/
def xlenBits : Xlen → Nat
  | .rv32 => 32
  | .rv64 => 64

/-- A value modulo `2^XLEN` (00_scope.md section 5). -/
def truncTo : Xlen → Word → Word
  | .rv32, v => (v.setWidth 32).setWidth 64
  | .rv64, v => v

/-- A value modulo `2^XLEN` on this machine. -/
def State.trunc (s : State) (v : Word) : Word := truncTo s.cfg.xlen v

/-- `XLEN/8` on this machine. -/
def State.entryBytes (s : State) : Nat := xlenBytes s.cfg.xlen

/-- `sext_32`: bits 63:32 become copies of bit 31. Followed by truncation on RV32 it is the value itself. -/
def sext32 (v : Word) : Word := (v.setWidth 32).signExtend 64

/-- `zext_5`: the unsigned 5-bit immediate of `CSRRWI`, `CSRRSI` and `CSRRCI` (45 R150). -/
def zext5 (uimm : RegIdx) : Word := uimm.setWidth 64

/-- "The bits 1:0 of `ssp` are read-only zero", and bit 2 where `SSP_BIT2_RO_ZERO` (10 R13). -/
def sspMask (p : Params) : Word := if p.sspBit2RoZero then ~~~7#64 else ~~~3#64

/-- The value `ssp` holds after a write of `v` (10 R13). -/
def State.legalSsp (s : State) (v : Word) : Word := s.trunc v &&& sspMask s.cfg

/-- The address is a multiple of the access size (20 R44, R45). -/
def aligned (va : Word) (n : Nat) : Bool := va.toNat % n == 0

/-- `n` addresses from `base` on. -/
def inRange (base size a : Nat) : Bool := base ≤ a && a < base + size

end Sys2Proof.Machine
end

