-- ==== Sys2Proof/Machine/Flags.lean ====
section
/-! DEFINITION. Zicfiss has no condition codes (00_scope.md section 3). The flags its instructions read are the `SSE`
enable bits, as gated reads of their registers (10 R18 to R23), and `xSSE` (R24). -/

namespace Sys2Proof.Machine

/-- `SSE` is bit 3 of each of the three registers (10 R15 to R17). -/
def sseBit : Nat := 3

/-- A register with its `SSE` field set to `b`. -/
def setSse (r : BitVec 64) (b : Bool) : BitVec 64 := if b then r ||| 8#64 else r &&& ~~~8#64

/-- `menvcfg.SSE` as read: the stored bit, and zero without S-mode (10 R22). -/
def State.menvcfgSse (s : State) : Bool := s.cfg.hasS && s.menvcfg.getLsbD sseBit

/-- `henvcfg.SSE` as read (10 R22). -/
def State.henvcfgSse (s : State) : Bool := s.menvcfgSse && s.henvcfg.getLsbD sseBit

/-- `senvcfg.SSE` as read in virtualization mode `v` (10 R22): the `henvcfg` gate applies when `V` = 1. -/
def State.senvcfgSse (s : State) (v : Bool) : Bool :=
  (if v then s.henvcfgSse else s.menvcfgSse) && s.senvcfg.getLsbD sseBit

/-- `xSSE`: whether Zicfiss is active in the current mode (10 R24). -/
def State.xSSE (s : State) : Bool :=
  if !s.cfg.hasS then false
  else match s.priv, s.v with
    | .machine, _ => false
    | .supervisor, false => s.menvcfgSse
    | .supervisor, true => s.henvcfgSse
    | .user, v => s.senvcfgSse v

/-- Whether `pte.xwr=010b` is defined in the page table of virtualization mode `v` (20 R49). -/
def State.ssEncodingDefined (s : State) (v : Bool) : Bool := if v then s.henvcfgSse else s.menvcfgSse

end Sys2Proof.Machine
end

