-- ==== Sys2Proof/Machine/Ops.lean ====
section
/-! DEFINITION. The named operations: registers, `ssp`, the program counter, memory bytes, taking an exception and
returning from one. -/

namespace Sys2Proof.Machine

open Sys2Proof.Config

/-! ## Registers -/

/-- Read integer register `r`: `XLEN` bits, `x0` reads zero (10 R10). -/
def State.readX (s : State) (r : RegIdx) : Word :=
  if r = 0 then 0 else s.trunc (s.x[r.toNat]'r.isLt)

/-- Write integer register `r`: a write to `x0` is discarded (10 R10). -/
def State.writeX (s : State) (r : RegIdx) (v : Word) : State :=
  { s with x := if r = 0 then s.x else s.x.set r.toNat (s.trunc v) r.isLt }

/-- `CsrReadSsp()` (45 R145): `XLEN` bits, the read-only-zero bits read 0. -/
def State.readSsp (s : State) : Word := s.legalSsp s.ssp

/-- `ssp <- v` (10 R13), whoever writes it. -/
def State.writeSsp (s : State) (v : Word) : State := { s with ssp := s.legalSsp v }

/-- The program counter after an instruction of `n` bytes, modulo `2^XLEN` (10 R12). -/
def State.pcAfter (s : State) (n : Nat) : Word := s.trunc (s.pc + BitVec.ofNat 64 n)

/-- `pc <- pc + ilen`. -/
def State.advance (s : State) (n : Nat) : State := { s with pc := s.pcAfter n }

/-! ## Memory bytes -/

/-- What a byte that nothing has written reads as. DESIGN CHOICE, unsafe (log entry 6): the spec leaves memory's
contents to the platform (70 R190). -/
def Memory.unlisted : Byte := 0

/-- Read one byte. -/
def Memory.read (m : Memory) (a : Nat) : Byte :=
  match m with
  | [] => Memory.unlisted
  | (k, b) :: rest => if k = a then b else Memory.read rest a

/-- Put an entry before the first with a larger address. -/
def Memory.insert (m : Memory) (a : Nat) (b : Byte) : Memory :=
  match m with
  | [] => [(a, b)]
  | (k, c) :: rest => if a < k then (a, b) :: (k, c) :: rest else (k, c) :: Memory.insert rest a b

/-- Write one byte, keeping the canonical form. -/
def Memory.write (m : Memory) (a : Nat) (b : Byte) : Memory :=
  let others := m.filter (fun c => c.1 != a)
  if b = Memory.unlisted then others else Memory.insert others a b

/-- Read `n` bytes, the byte at the lowest address in bits 7:0 (20 R42). -/
def Memory.load (m : Memory) (a : Nat) : Nat → Word
  | 0 => 0
  | n + 1 => (Memory.load m (a + 1) n) <<< 8 ||| (Memory.read m a).setWidth 64

/-- Write the low `n` bytes of `v`, bits 7:0 at the lowest address (20 R42). -/
def Memory.store (m : Memory) (a : Nat) (n : Nat) (v : Word) : Memory :=
  match n with
  | 0 => m
  | n + 1 => Memory.store (Memory.write m a (v.setWidth 8)) (a + 1) n (v >>> 8)

/-- The canonical form: addresses strictly rising, no entry equal to what an unlisted address reads as. -/
def Memory.wf (m : Memory) : Bool :=
  match m with
  | [] => true
  | (k, b) :: rest => b != Memory.unlisted && rest.all (fun c => k < c.1) && Memory.wf rest

/-! ## Exceptions -/

/-- The cause codes (60 R160; the page-fault codes of the base from 93 U1). -/
def Exc.code : Exc → Nat
  | .instrAccessFault => 1
  | .illegalInstruction => 2
  | .loadAccessFault => 5
  | .storeMisaligned => 6
  | .storeAccessFault => 7
  | .instrPageFault => 12
  | .loadPageFault => 13
  | .storePageFault => 15
  | .softwareCheck => 18
  | .instrGuestPageFault => 20
  | .loadGuestPageFault => 21
  | .virtualInstruction => 22
  | .storeGuestPageFault => 23

/-- The guest-page faults. -/
def Exc.isGuestPageFault : Exc → Bool
  | .instrGuestPageFault | .loadGuestPageFault | .storeGuestPageFault => true
  | .instrAccessFault | .illegalInstruction | .loadAccessFault | .storeMisaligned | .storeAccessFault => false
  | .instrPageFault | .loadPageFault | .storePageFault | .softwareCheck | .virtualInstruction => false

/-- Guest-page faults and virtual-instruction exceptions are never delegated to VS (60 R173). -/
def Exc.neverToVs (e : Exc) : Bool := e.isGuestPageFault || e == .virtualInstruction

/-- The mode that takes a trap. -/
inductive Target
  | m
  | s
  | vs
deriving DecidableEq, Repr

/-- Which mode takes exception `e` raised in the current mode (60 R170, R173). -/
def State.trapTarget (s : State) (e : Exc) : Target :=
  if s.priv != .machine && s.cfg.hasS && s.medeleg.getLsbD e.code then
    if s.v && s.hedeleg.getLsbD e.code && !e.neverToVs then .vs else .s
  else .m

/-- `xtvec.BASE`: synchronous exceptions always enter at `BASE` (60 R170). The two low bits of `xtvec` are its mode,
not part of `BASE`. PRESUMED (log entry 21). -/
def State.tvecBase (s : State) (tvec : Word) : Word := s.trunc (tvec &&& ~~~3#64)

/-- The trap registers after a trap with cause `e` and trap value `tval` (60 R170). -/
def State.savedRegs (s : State) (r : TrapRegs) (e : Exc) (tval : Word) : TrapRegs :=
  { r with epc := s.pc, cause := BitVec.ofNat 64 e.code, tval := s.trunc tval }

/-- Entry into M-mode (60 R170). -/
def State.enterM (s : State) (e : Exc) (tval : Word) : State :=
  { s with
    mTrap := s.savedRegs s.mTrap e tval
    mstatus := { s.mstatus with
      mpp := s.priv
      mpv := if s.cfg.hasH then s.v else s.mstatus.mpv
      mpie := s.mstatus.mie
      mie := false }
    priv := .machine
    v := false
    pc := s.tvecBase s.mTrap.tvec }

/-- Entry into S- or HS-mode (60 R170). -/
def State.enterS (s : State) (e : Exc) (tval : Word) : State :=
  { s with
    sTrap := s.savedRegs s.sTrap e tval
    mstatus := { s.mstatus with
      spp := s.priv == .supervisor
      spie := s.mstatus.sie
      sie := false }
    hstatusSpv := if s.cfg.hasH then s.v else s.hstatusSpv
    priv := .supervisor
    v := false
    pc := s.tvecBase s.sTrap.tvec }

/-- Entry into VS-mode (60 R170). -/
def State.enterVs (s : State) (e : Exc) (tval : Word) : State :=
  { s with
    vsTrap := s.savedRegs s.vsTrap e tval
    vsstatus := { s.vsstatus with
      spp := s.priv == .supervisor
      spie := s.vsstatus.sie
      sie := false }
    priv := .supervisor
    v := true
    pc := s.tvecBase s.vsTrap.tvec }

/-- "Guest-page faults additionally record a guest physical address in a second trap-value register", which no
source describes (60 R169): the register of the mode that takes the trap receives a free value (log entry 14). -/
def State.noteGuestAddress (s : State) (e : Exc) (t : Target) : State :=
  if e.isGuestPageFault then
    match t with
    | .m => { s with mtval2 := s.trunc (guestTrapValue s.draws), draws := s.draws + 1 }
    | .s => { s with htval := s.trunc (guestTrapValue s.draws), draws := s.draws + 1 }
    | .vs => s
  else s

/-- Taking an exception: `raise E(info)` at the current `pc`, in the current mode (60 R170). No register, no byte of
memory, no `ssp` and no `SSE` field changes. -/
def State.takeTrap (s : State) (e : Exc) (tval : Word) : State :=
  match s.trapTarget e with
  | .m => (s.enterM e tval).noteGuestAddress e .m
  | .s => (s.enterS e tval).noteGuestAddress e .s
  | .vs => (s.enterVs e tval).noteGuestAddress e .vs

/-- Raise a memory exception: the trap value is the faulting virtual address, or zero (60 R169, 92 D10). -/
def State.raiseAddr (s : State) (e : Exc) (va : Word) : State :=
  s.takeTrap e (if s.cfg.xtvalAddr then va else 0)

/-- Raise an illegal- or virtual-instruction exception: the trap value is the instruction word, zero-extended, or
zero (60 R169, 92 D10). -/
def State.raiseInsn (s : State) (e : Exc) (word : BitVec 32) : State :=
  s.takeTrap e (if s.cfg.xtvalAddr && s.cfg.xtvalInsn then word.setWidth 64 else 0)

/-- The shadow stack fault: cause 18 with trap value 3 (60 R161, 92 D30). -/
def State.raiseSoftwareCheck (s : State) : State := s.takeTrap .softwareCheck 3

/-! ## Return from a trap

`MRET` and `SRET` are the base architecture's instructions and no row of the opcode table; what they do is in 60 R171
and stands here beside trap entry. The step runs them as base instructions (Base.lean). -/

/-- What `MRET` does (60 R171). -/
def State.returnM (s : State) : State :=
  { s with
    pc := s.mTrap.epc
    priv := s.mstatus.mpp
    v := s.mstatus.mpp != .machine && s.cfg.hasH && s.mstatus.mpv
    mstatus := { s.mstatus with
      mie := s.mstatus.mpie
      mpie := true
      mpp := .user
      mpv := false } }

/-- The mode a one-bit previous-privilege field names. -/
def privOfSpp (spp : Bool) : Priv := if spp then .supervisor else .user

/-- What `SRET` does with `V` = 0 (60 R171). -/
def State.returnS (s : State) : State :=
  { s with
    pc := s.sTrap.epc
    priv := privOfSpp s.mstatus.spp
    v := s.cfg.hasH && s.hstatusSpv
    mstatus := { s.mstatus with
      sie := s.mstatus.spie
      spie := true
      spp := false }
    hstatusSpv := false }

/-- What `SRET` does with `V` = 1 (60 R171). -/
def State.returnVs (s : State) : State :=
  { s with
    pc := s.vsTrap.epc
    priv := privOfSpp s.vsstatus.spp
    v := true
    vsstatus := { s.vsstatus with
      sie := s.vsstatus.spie
      spie := true
      spp := false } }

end Sys2Proof.Machine
end

