-- ==== Sys2Proof/Machine/Translate.lean ====
section
/-! DEFINITION. Effective privilege, the platform's PMP and PMA, and the interface to the base translation: the record
of 20_memory.md R50 read from State's tables. -/

namespace Sys2Proof.Machine

/-- The privilege and virtualization mode an explicit access is checked with: the current ones, or `MPP` and `MPV`
in M-mode with `mstatus.MPRV` = 1 (92 D27). Fetch, `xSSE` and the enabling checks use the current mode. -/
def State.effMode (s : State) : Priv × Bool :=
  if s.priv == .machine && s.mstatus.mprv then
    (s.mstatus.mpp, s.mstatus.mpp != .machine && s.cfg.hasH && s.mstatus.mpv)
  else (s.priv, s.v)

/-- No permission. -/
def Perm.none : Perm := ⟨false, false, false⟩

/-- What both permit. -/
def Perm.meet (p q : Perm) : Perm := ⟨p.r && q.r, p.w && q.w, p.x && q.x⟩

/-- What the PMP permits at one physical address: the first region that holds it, nothing where none does. -/
def pmpAt (regions : List PmpRegion) (priv : Priv) (a : Nat) : Perm :=
  match regions with
  | [] => Perm.none
  | r :: rest =>
    if inRange r.base r.size a then (if priv == .machine then r.machine else r.lower)
    else pmpAt rest priv a

/-- "PMP permission for [pa, pa+n) at priv_eff" (20 R50). -/
def pmpOver (regions : List PmpRegion) (priv : Priv) (pa : Nat) : Nat → Perm
  | 0 => Perm.all
  | n + 1 => (pmpAt regions priv pa).meet (pmpOver regions priv (pa + 1) n)

/-- Idempotency and AMOSwap support of one physical address: neither where no region holds it. -/
def pmaAt (regions : List PmaRegion) (a : Nat) : Bool × Bool :=
  match regions with
  | [] => (false, false)
  | r :: rest => if inRange r.base r.size a then (r.idempotent, r.amoswap) else pmaAt rest a

/-- Idempotency and AMOSwap support of the accessed memory range (20 R47, R57). -/
def pmaOver (regions : List PmaRegion) (pa : Nat) : Nat → Bool × Bool
  | 0 => (true, true)
  | n + 1 =>
    ((pmaAt regions pa).1 && (pmaOver regions (pa + 1) n).1, (pmaAt regions pa).2 && (pmaOver regions (pa + 1) n).2)

/-- The leaf record of 20 R50. -/
structure Leaf where
  page : PageType
  u : Bool
  /-- The G-stage permissions, where G-stage translation is active. -/
  g : Option Perm
  pa : Nat
  pmp : Perm
  idempotent : Bool
  amoswap : Bool
deriving DecidableEq, Repr

/-- The result of `Translate` (20 R50). -/
inductive Walk
  | fault (f : WalkFault)
  | leaf (l : Leaf)
deriving DecidableEq, Repr

/-- The mapping a walk meets: the first of its table that holds the address for this kind of access. -/
def findMapping (ms : List Mapping) (st : Stage) (kind : AccessKind) (va : Nat) : Option Mapping :=
  match ms with
  | [] => none
  | m :: rest =>
    if m.stage == st && m.kinds.contains kind && inRange m.base m.size va then some m
    else findMapping rest st kind va

/-- `satp.MODE` with `V` = 0, `vsatp.MODE` with `V` = 1, is `Bare` (20 R51). -/
def State.isBare (s : State) (v : Bool) : Bool := (if v then s.vsatpMode else s.satpMode) == .bare

/-- G-stage translation is active: `V` = 1 and `hgatp` not `Bare` (20 R55). -/
def State.gActive (s : State) (v : Bool) : Bool := v && s.hgatpMode == .paged

/-- The leaf record for the `n` bytes at physical address `pa`. -/
def State.leafAt (s : State) (page : PageType) (u : Bool) (g : Option Perm) (pa : Nat) (n : Nat) (priv : Priv) : Leaf :=
  { page := page, u := u, g := g, pa := pa, pmp := pmpOver s.pmp priv pa n,
    idempotent := (pmaOver s.pma pa n).1, amoswap := (pmaOver s.pma pa n).2 }

/-- `Translate(va, priv_eff, V_eff)` (20 R50) for an access of `n` bytes. An address in no mapping is not resident; a
leaf `010b` where the SS encoding is not defined is a reserved encoding, a page fault (R49, 92 D18). -/
def State.translate (s : State) (kind : AccessKind) (va : Word) (n : Nat) (priv : Priv) (v : Bool) : Walk :=
  match findMapping s.mappings (if v then .vs else .single) kind va.toNat with
  | none => .fault .page
  | some m =>
    match m.entry with
    | .fault f => .fault f
    | .leaf page u g pa =>
      if page == .shadowStack && !s.ssEncodingDefined v then .fault .page
      else .leaf (s.leafAt page u (if s.gActive v then some g else none) (pa + (va.toNat - m.base)) n priv)

/-- The exception of a failed walk for a store-typed access (20 R62): typed by the instruction, but for a G-stage
fault of an implicit access of VS-stage translation, which is typed by that access (60 R165). -/
def WalkFault.asStore : WalkFault → Exc
  | .page => .storePageFault
  | .access => .storeAccessFault
  | .guestPage => .storeGuestPageFault
  | .implicitGuestRead => .loadGuestPageFault
  | .implicitGuestWrite => .storeGuestPageFault

/-- The same for a load. -/
def WalkFault.asLoad : WalkFault → Exc
  | .page => .loadPageFault
  | .access => .loadAccessFault
  | .guestPage => .loadGuestPageFault
  | .implicitGuestRead => .loadGuestPageFault
  | .implicitGuestWrite => .storeGuestPageFault

/-- The same for an instruction fetch. -/
def WalkFault.asFetch : WalkFault → Exc
  | .page => .instrPageFault
  | .access => .instrAccessFault
  | .guestPage => .instrGuestPageFault
  | .implicitGuestRead => .loadGuestPageFault
  | .implicitGuestWrite => .storeGuestPageFault

/-- Every access but a load or a fetch is typed store/AMO, `SSPOPCHK`'s too (20 R62). -/
def WalkFault.typed (f : WalkFault) : AccessKind → Exc
  | .fetch => f.asFetch
  | .load => f.asLoad
  | .store | .ssPush | .ssPopChk | .ssAmoSwap => f.asStore

/-- The `SUM` bit that governs supervisor accesses in virtualization mode `v` (20 R54; log entry 26). -/
def State.sumBit (s : State) (v : Bool) : Bool := if v then s.vsstatus.sum else s.mstatus.sum

/-- The `MXR` bit in virtualization mode `v`; of no effect on an SS page (20 R54). -/
def State.mxrBit (s : State) (v : Bool) : Bool := if v then s.vsstatus.mxr || s.mstatus.mxr else s.mstatus.mxr

/-- `U` and `SUM` enforcement for a data access (20 R54): U-mode needs `U` = 1, S-mode needs `U` = 0 or `SUM` = 1. -/
def State.userBitOk (s : State) (priv : Priv) (v : Bool) (u : Bool) : Bool :=
  match priv with
  | .user => u
  | .supervisor => !u || s.sumBit v
  | .machine => true

end Sys2Proof.Machine
end

