-- ==== Sys2Proof/Machine/Access.lean ====
section
/-! DEFINITION. The shadow-stack access check of 20_memory.md R52, and ordinary loads, stores and fetches as they meet
SS pages (R58 to R60). -/

namespace Sys2Proof.Machine

open Sys2Proof.Config

/-! ## The shadow-stack access check -/

/-- The operations of 20 R52. -/
inductive SsOp
  | push
  | popChk
  | amoSwap
deriving DecidableEq, Repr

/-- The kind of walk an operation makes. -/
def SsOp.kind : SsOp → AccessKind
  | .push => .ssPush
  | .popChk => .ssPopChk
  | .amoSwap => .ssAmoSwap

/-- One fault if the condition fails. -/
def faultUnless (ok : Bool) (e : Exc) : List Exc := if ok then [] else [e]

/-- Condition (a): alignment (20 R44, R45). -/
def State.alignFaults (s : State) (op : SsOp) (va : Word) (n : Nat) : List Exc :=
  faultUnless (aligned va n) (match op, s.cfg.amoMisaligned with
    | .amoSwap, .addressMisaligned => .storeMisaligned
    | .amoSwap, .accessFault => .storeAccessFault
    | .push, _ => .storeAccessFault
    | .popChk, _ => .storeAccessFault)

/-- Condition (e): the leaf's page type (20 R53). For the unlisted `110b` either of two faults may be reported, the
recommended one first (92 D18). -/
def pageFaults : PageType → List Exc
  | .shadowStack => []
  | .readOnly => [.storePageFault]
  | .readWrite | .executeOnly | .readExecute | .readWriteExecute => [.storeAccessFault]
  | .writeExecute => [.storePageFault, .storeAccessFault]

/-- Condition (g): read-write permission in an active G-stage (20 R55). -/
def gFaults : Option Perm → List Exc
  | none => []
  | some g => faultUnless (g.r && g.w) .storeGuestPageFault

/-- Conditions (e) to (j) on the leaf a walk returned (20 R53 to R57, R47). -/
def State.leafFaults (s : State) (op : SsOp) (priv : Priv) (v : Bool) (l : Leaf) : List Exc :=
  pageFaults l.page ++ faultUnless (s.userBitOk priv v l.u) .storePageFault ++ gFaults l.g ++
    faultUnless (l.pmp.r && l.pmp.w) .storeAccessFault ++ faultUnless l.idempotent .storeAccessFault ++
    faultUnless (op != .amoSwap || l.amoswap) .storeAccessFault

/-- Conditions (b) to (j): no shadow stack in effective M-mode or without translation (20 R51), else what the walk
and its leaf give. -/
def State.placeFaults (s : State) (op : SsOp) (va : Word) (n : Nat) : List Exc :=
  if s.effMode.1 == .machine then [.storeAccessFault]
  else if s.isBare s.effMode.2 then [.storeAccessFault]
  else match s.translate op.kind va n s.effMode.1 s.effMode.2 with
    | .fault f => [f.asStore]
    | .leaf l => s.leafFaults op s.effMode.1 s.effMode.2 l

/-- Every exception that applies to a shadow-stack access of `n` bytes at `va`, in the order (a) to (j) of 20 R52. -/
def State.ssFaults (s : State) (op : SsOp) (va : Word) (n : Nat) : List Exc :=
  s.alignFaults op va n ++ s.placeFaults op va n

/-- Where the access lands, when nothing applies. -/
def State.ssAddr (s : State) (op : SsOp) (va : Word) (n : Nat) : Nat :=
  match s.translate op.kind va n s.effMode.1 s.effMode.2 with
  | .fault _ => 0
  | .leaf l => l.pa

/-- The fault reported among those that apply, `first` and `others`: the first, or a free choice (60 R166, 92 D11). -/
def State.reported (s : State) (first : Exc) (others : List Exc) : Exc :=
  match s.cfg.faultReport, others with
  | .firstInOrder, _ => first
  | .anyApplicable, [] => first
  | .anyApplicable, _ :: _ => (first :: others).getD (faultChoice s.draws % (others.length + 1)) first

/-- The counter of draws after the report. -/
def State.drawsAfter (s : State) (others : List Exc) : Nat :=
  match s.cfg.faultReport, others with
  | .firstInOrder, _ => s.draws
  | .anyApplicable, [] => s.draws
  | .anyApplicable, _ :: _ => s.draws + 1

/-- Raise one of the faults that apply to a shadow-stack access at `va`. -/
def State.raiseSs (s : State) (first : Exc) (others : List Exc) (va : Word) : State :=
  { s with draws := s.drawsAfter others }.raiseAddr (s.reported first others) va

/-- `SSMemRead`, `SSMemWrite` and `SSMemSwap` up to the access: if nothing applies go on with the physical address,
otherwise raise and touch no memory (20 R52). -/
def State.withSsAccess (s : State) (op : SsOp) (va : Word) (n : Nat) (go : Nat → State) : State :=
  match s.ssFaults op va n with
  | [] => go (s.ssAddr op va n)
  | first :: others => s.raiseSs first others va

/-- The memory with `n` bytes stored at physical address `pa`. -/
def State.storeAt (s : State) (pa n : Nat) (v : Word) : State := { s with mem := s.mem.store pa n v }

/-! ## Ordinary accesses

The base's loads, stores and AMOs are no row of the opcode table. What an SS page lets them do is in 20 R58 and R59, and
the loads and stores of Base.lean make them; the rest of their check is the base's own (log entry 20). A byte is the
unit, so that an access that straddles two pages is checked on both. -/

/-- A base exception of the access's own type. -/
def accessFaultOf : AccessKind → Exc
  | .fetch => .instrAccessFault
  | .load => .loadAccessFault
  | .store | .ssPush | .ssPopChk | .ssAmoSwap => .storeAccessFault

/-- What a leaf's page type says to an ordinary load, store or fetch; `none` lets it go on. An SS page is readable by
every load whatever `MXR` holds, and neither stored to nor fetched from (20 R54, R58 to R60). -/
def pageRefuses (kind : AccessKind) (mxr : Bool) (page : PageType) : Option Exc :=
  match kind with
  | .load =>
    match page with
    | .shadowStack | .readOnly | .readWrite | .readExecute | .readWriteExecute => none
    | .executeOnly => if mxr then none else some .loadPageFault
    | .writeExecute => some .loadPageFault
  | .fetch =>
    match page with
    | .executeOnly | .readExecute | .readWriteExecute => none
    | .shadowStack => some .instrAccessFault
    | .readOnly | .readWrite | .writeExecute => some .instrPageFault
  | .store | .ssPush | .ssPopChk | .ssAmoSwap =>
    match page with
    | .readWrite | .readWriteExecute => none
    | .shadowStack => some .storeAccessFault
    | .readOnly | .executeOnly | .readExecute | .writeExecute => some .storePageFault

/-- The permission an ordinary access needs of the PMP. -/
def Perm.grants (p : Perm) : AccessKind → Bool
  | .load => p.r
  | .fetch => p.x
  | .store | .ssPush | .ssPopChk | .ssAmoSwap => p.w

/-- A G-stage leaf that may be written and not read is reserved: `010b`, which stays so (20 R49, R55; 93 U2), and the
base's reserved `110b` (log entry 20). -/
def Perm.reserved (g : Perm) : Bool := g.w && !g.r

/-- The permission an ordinary access needs of an active G-stage, where `mstatus.MXR` makes executable memory readable;
a reserved leaf grants nothing, so that it raises a guest-page fault of the access's type (93 U2). -/
def State.gGrants (s : State) (g : Perm) (kind : AccessKind) : Bool :=
  !g.reserved && (g.grants kind || (kind == .load && s.mstatus.mxr && g.x))

/-- The base's `U` and `SUM` rule: a fetch in S-mode may not come from a page with `U` = 1, a data access may where
`SUM` = 1. -/
def State.ordinaryUserOk (s : State) (kind : AccessKind) (priv : Priv) (v u : Bool) : Bool :=
  match kind, priv with
  | .fetch, .supervisor => !u
  | _, _ => s.userBitOk priv v u

/-- A physical address, if the PMP grants the access there; the PMA is not asked (log entry 37). -/
def State.pmpChecked (s : State) (kind : AccessKind) (priv : Priv) (pa : Nat) : Except Exc Nat :=
  if (pmpAt s.pmp priv pa).grants kind then .ok pa else .error (accessFaultOf kind)

/-- One byte of an ordinary access in mode `priv`, `v`: its physical address, or the exception it raises. The walk is
checked before the page type, that before `U` and `SUM`, those before the G-stage, and the PMP last; the order is the
base's matter and PRESUMED (log entry 20). DESIGN CHOICE: no PMA check is made, though 20 R58 leaves one to the base; an
address in no PMA region is read, written and fetched like any other (log entry 37). -/
def State.ordinaryByte (s : State) (kind : AccessKind) (priv : Priv) (v : Bool) (va : Word) : Except Exc Nat :=
  if priv == .machine then s.pmpChecked kind priv va.toNat
  else if s.isBare v then
    if s.gActive v then
      match findMapping s.mappings .gOnly kind va.toNat with
      | none => .error (WalkFault.guestPage.typed kind)
      | some m =>
        match m.entry with
        | .fault f => .error (f.typed kind)
        | .leaf _ _ g pa =>
          if s.gGrants g kind then s.pmpChecked kind priv (pa + (va.toNat - m.base))
          else .error (WalkFault.guestPage.typed kind)
    else s.pmpChecked kind priv va.toNat
  else
    match s.translate kind va 1 priv v with
    | .fault f => .error (f.typed kind)
    | .leaf l =>
      match pageRefuses kind (s.mxrBit v) l.page with
      | some e => .error e
      | none =>
        if !s.ordinaryUserOk kind priv v l.u then .error (WalkFault.page.typed kind)
        else match l.g with
          | none => s.pmpChecked kind priv l.pa
          | some g =>
            if s.gGrants g kind then s.pmpChecked kind priv l.pa
            else .error (WalkFault.guestPage.typed kind)

/-- `n` bytes of an ordinary access, lowest address first; the first byte that faults gives the exception and its own
address as the faulting one. DESIGN CHOICE: an access that runs past the top of the address space goes on at address 0,
modulo `2^XLEN`, which the spec leaves open (91 N3; log entry 36). -/
def State.ordinaryBytes (s : State) (kind : AccessKind) (priv : Priv) (v : Bool) (va : Word) :
    Nat → Except (Exc × Word) (List Nat)
  | 0 => .ok []
  | n + 1 =>
    match s.ordinaryByte kind priv v va with
    | .error e => .error (e, va)
    | .ok a =>
      match s.ordinaryBytes kind priv v (s.trunc (va + 1)) n with
      | .error f => .error f
      | .ok as => .ok (a :: as)

/-- The value of bytes given lowest first (20 R42). -/
def joinBytes : List Byte → Word
  | [] => 0
  | b :: bs => joinBytes bs <<< 8 ||| b.setWidth 64

/-- Write the low bytes of `v` to these addresses, bits 7:0 to the first. -/
def Memory.scatter (m : Memory) (as : List Nat) (v : Word) : Memory :=
  match as with
  | [] => m
  | a :: as => Memory.scatter (Memory.write m a (v.setWidth 8)) as (v >>> 8)

/-- `MemRead(va, n)`: an ordinary load (00_scope.md section 5; 20 R58). -/
def State.memRead (s : State) (va : Word) (n : Nat) : Except (Exc × Word) Word :=
  match s.ordinaryBytes .load s.effMode.1 s.effMode.2 va n with
  | .error f => .error f
  | .ok as => .ok (joinBytes (as.map (Memory.read s.mem)))

/-- `MemWrite(va, n, v)`: an ordinary store, or any other store-type access of the base (20 R59). -/
def State.memWrite (s : State) (va : Word) (n : Nat) (v : Word) : Except (Exc × Word) State :=
  match s.ordinaryBytes .store s.effMode.1 s.effMode.2 va n with
  | .error f => .error f
  | .ok as => .ok { s with mem := s.mem.scatter as v }

end Sys2Proof.Machine
end

