-- ==== Sys2Proof/Machine/Envcfg.lean ====
section
/-! DEFINITION. CSR access to `menvcfg`, `henvcfg` and `senvcfg`, through which alone the `SSE` fields change
(45_csr_access.md R153; 10_state.md R15 to R23, 92 D7, D15, D29). The CSR instructions that name these registers are no
row of the opcode table; the step runs them as base instructions (Base.lean). -/

namespace Sys2Proof.Machine

open Sys2Proof.Config

/-- The five CSRs; the last two are the high halves on RV32. -/
inductive EnvCsr
  | menvcfg
  | senvcfg
  | henvcfg
  | menvcfgh
  | henvcfgh
deriving DecidableEq, Repr

/-- The CSR numbers (92 D7). -/
def EnvCsr.number : EnvCsr → BitVec 12
  | .menvcfg => 0x30A
  | .senvcfg => 0x10A
  | .henvcfg => 0x60A
  | .menvcfgh => 0x31A
  | .henvcfgh => 0x61A

/-- The register a CSR number names. -/
def envCsrOf (n : BitVec 12) : Option EnvCsr :=
  [EnvCsr.menvcfg, .senvcfg, .henvcfg, .menvcfgh, .henvcfgh].find? (fun c => c.number == n)

/-- Whether the register exists on this machine: `henvcfg` with the H extension (10 R17), the high halves on RV32. That
`senvcfg` exists only with S-mode, so that without it every access is illegal, M-mode's too, is not said in 10 R16 or 92
D7: PRESUMED (log entry 25). -/
def State.envExists (s : State) : EnvCsr → Bool
  | .menvcfg => true
  | .senvcfg => s.cfg.hasS
  | .henvcfg => s.cfg.hasH
  | .menvcfgh => s.cfg.xlen == .rv32
  | .henvcfgh => s.cfg.hasH && s.cfg.xlen == .rv32

/-- Who may access the register (45 R153, 92 D7): `menvcfg` M; `henvcfg` M and HS; `senvcfg` M, S or HS, and VS. -/
def EnvCsr.allowed (c : EnvCsr) (priv : Priv) (v : Bool) : Bool :=
  match c, priv with
  | _, .machine => true
  | .menvcfg, _ | .menvcfgh, _ => false
  | .henvcfg, .supervisor | .henvcfgh, .supervisor => !v
  | .senvcfg, .supervisor => true
  | _, .user => false

/-- The exception an access raises, if any. "VS access raises virtual-instruction" (92 D7) for `henvcfg`; the other
denied accesses follow the base's rule for CSRs (log entry 25). -/
def State.envDenied (s : State) (c : EnvCsr) : Option Exc :=
  if !s.envExists c then some .illegalInstruction
  else if c.allowed s.priv s.v then none
  else if s.v && !(c == .menvcfg || c == .menvcfgh) then some .virtualInstruction
  else some .illegalInstruction

/-- Bits 31:0 of a register. -/
def lowHalf (r : BitVec 64) : Word := r &&& 0xFFFFFFFF

/-- The register with bits 31:0 replaced. -/
def withLowHalf (r : BitVec 64) (v : Word) : BitVec 64 := (r &&& ~~~0xFFFFFFFF#64) ||| lowHalf v

/-- The register with bits 63:32 replaced. -/
def withHighHalf (r : BitVec 64) (v : Word) : BitVec 64 := lowHalf r ||| (v <<< 32)

/-- A whole write on RV64, a write of the low half on RV32. -/
def State.mergeEnv (s : State) (old : BitVec 64) (v : Word) : BitVec 64 :=
  match s.cfg.xlen with
  | .rv64 => v
  | .rv32 => withLowHalf old v

/-- What a CSR read returns: the stored register with its `SSE` field as read (10 R22). -/
def State.readEnv (s : State) : EnvCsr → Word
  | .menvcfg => s.trunc (setSse s.menvcfg s.menvcfgSse)
  | .henvcfg => s.trunc (setSse s.henvcfg s.henvcfgSse)
  | .senvcfg => s.trunc (setSse s.senvcfg (s.senvcfgSse s.v))
  | .menvcfgh => s.menvcfg >>> 32
  | .henvcfgh => s.henvcfg >>> 32

/-- A write to `menvcfg`. Setting `SSE` lifts the gate on `henvcfg.SSE` and `senvcfg.SSE`, whose stored bits then hold
any value (10 R23, 92 D15). Without S-mode `SSE` is read-only zero (92 D23). -/
def State.writeMenvcfg (s : State) (v : Word) : State :=
  let new := s.mergeEnv s.menvcfg v
  if !s.cfg.hasS then { s with menvcfg := setSse new false }
  else if new.getLsbD sseBit && !s.menvcfg.getLsbD sseBit then
    { s with
      menvcfg := new
      henvcfg := setSse s.henvcfg (reenabledSse s.draws)
      senvcfg := setSse s.senvcfg (reenabledSse (s.draws + 1))
      draws := s.draws + 2 }
  else { s with menvcfg := new }

/-- A write to `henvcfg`: while `menvcfg.SSE` is 0 its `SSE` field is read-only (10 R19, R23). -/
def State.writeHenvcfg (s : State) (v : Word) : State :=
  let new := s.mergeEnv s.henvcfg v
  { s with henvcfg := if s.menvcfgSse then new else setSse new (s.henvcfg.getLsbD sseBit) }

/-- A write to `senvcfg`: its `SSE` field is read-only while `menvcfg.SSE` is 0, and with `V` = 1 while `henvcfg.SSE`
is 0; the stored bit survives the latter (10 R19, R21, R23). -/
def State.writeSenvcfg (s : State) (v : Word) : State :=
  let new := s.mergeEnv s.senvcfg v
  { s with senvcfg := if (if s.v then s.henvcfgSse else s.menvcfgSse) then new
                      else setSse new (s.senvcfg.getLsbD sseBit) }

/-- A CSR write, once allowed. -/
def State.writeEnv (s : State) (c : EnvCsr) (v : Word) : State :=
  match c with
  | .menvcfg => s.writeMenvcfg v
  | .henvcfg => s.writeHenvcfg v
  | .senvcfg => s.writeSenvcfg v
  | .menvcfgh => { s with menvcfg := withHighHalf s.menvcfg v }
  | .henvcfgh => { s with henvcfg := withHighHalf s.henvcfg v }

/-- A CSR instruction on one of these registers: check, read the old value, write `new` if there is one, put the old
value in `x[rd]` (45 R153, with the form of R147 to R152). The old value is what a CSR read returns, the gated `SSE`
field among it. -/
def State.csrEnv (s : State) (c : EnvCsr) (rd : RegIdx) (new : Option Word) (word : BitVec 32) : State :=
  match s.envDenied c with
  | some e => s.raiseInsn e word
  | none =>
    match new with
    | some v => ((s.writeEnv c v).writeX rd (s.readEnv c)).advance 4
    | none => (s.writeX rd (s.readEnv c)).advance 4

end Sys2Proof.Machine
end

