-- ==== Sys2Proof/Machine/BaseDecode.lean ====
section
/-! DEFINITION. The base instructions beside the opcode table to which the spec gives an effect, and how their words are
read: the trap returns (60_exceptions.md R171), the CSR instructions on the environment registers (45_csr_access.md
R153), and the instructions the spec's programs use (95_test_vectors.md section 5). The rest of the base is excluded by
00_scope.md section 3. -/

namespace Sys2Proof.Machine

open Sys2Proof.Config

/-- The three operations of Zicsr (30 R95). -/
inductive CsrOp
  | rw
  | rs
  | rc
deriving DecidableEq, Repr

/-- A base instruction. Offsets of branches are held without their bit 0, those of the stack-relative compressed forms
without their bits 2:0, as they are encoded. -/
inductive BaseInstr
  /-- `MRET` (60 R171). -/
  | mret
  /-- `SRET` (60 R171). -/
  | sret
  /-- `CSRRW`, `CSRRS`, `CSRRC` or an immediate form on an environment register (45 R153). -/
  | csrEnv (op : CsrOp) (imm : Bool) (c : EnvCsr) (rd f : RegIdx)
  /-- `unimp` (30 R94). -/
  | unimp
  | addi (rd rs1 : RegIdx) (imm : BitVec 12)
  | lw (rd rs1 : RegIdx) (imm : BitVec 12)
  | ld (rd rs1 : RegIdx) (imm : BitVec 12)
  | sd (rs2 rs1 : RegIdx) (imm : BitVec 12)
  | beq (rs1 rs2 : RegIdx) (off : BitVec 12)
  /-- `jalr x0,0(ra)`. -/
  | ret
  | cAddi (rd : RegIdx) (imm : BitVec 6)
  | cSdsp (rs2 : RegIdx) (off : BitVec 6)
  | cLdsp (rd : RegIdx) (off : BitVec 6)
  | cJr (rs1 : RegIdx)
deriving DecidableEq, Repr

/-! ## Words -/

/-- `jalr x0,0(ra)` (95 section 5). -/
def wordRet : BitVec 32 := 0x00008067
/-- `csrrw x0,cycle,x0` (30 R94). -/
def wordUnimp : BitVec 32 := 0xC0001073
/-- PRESUMED (log entry 35): the spec gives the trap returns no encoding; this is the family's. -/
def wordMret : BitVec 32 := 0x30200073
/-- PRESUMED (log entry 35), as `wordMret`. -/
def wordSret : BitVec 32 := 0x10200073

def opcodeOpImm : BitVec 7 := 0x13
def opcodeLoad : BitVec 7 := 0x03
def opcodeStore : BitVec 7 := 0x23
def opcodeBranch : BitVec 7 := 0x63

/-- The immediate of a store: bits 11:5 in bits 31:25, bits 4:0 in bits 11:7 (95 section 5, `sd`). -/
def fieldStoreImm (w : BitVec 32) : BitVec 12 := w.extractLsb' 25 7 ++ w.extractLsb' 7 5

/-- Bits 12:1 of a branch offset. The spec names the B-type and gives example words; the places of the bits are the
family's, PRESUMED (log entry 35). -/
def fieldBranchOff (w : BitVec 32) : BitVec 12 :=
  w.extractLsb' 31 1 ++ w.extractLsb' 7 1 ++ w.extractLsb' 25 6 ++ w.extractLsb' 8 4

/-- `funct3` of a CSR instruction (30 R95): bit 2 says that the field at 19:15 is an immediate. -/
def csrOpOf (funct3 : BitVec 3) : Option (CsrOp × Bool) :=
  if funct3 = 0b001 then some (.rw, false)
  else if funct3 = 0b010 then some (.rs, false)
  else if funct3 = 0b011 then some (.rc, false)
  else if funct3 = 0b101 then some (.rw, true)
  else if funct3 = 0b110 then some (.rs, true)
  else if funct3 = 0b111 then some (.rc, true)
  else none

/-- The `funct3` of a CSR instruction. -/
def CsrOp.funct3 : CsrOp → Bool → BitVec 3
  | .rw, false => 0b001
  | .rs, false => 0b010
  | .rc, false => 0b011
  | .rw, true => 0b101
  | .rs, true => 0b110
  | .rc, true => 0b111

/-! ## The decoder -/

/-- A `SYSTEM` word: the trap returns, `unimp`, and the CSR instructions on environment registers. -/
def decodeBaseSystem (w : BitVec 32) : Option BaseInstr :=
  if w = wordMret then some .mret
  else if w = wordSret then some .sret
  else if w = wordUnimp then some .unimp
  else match csrOpOf (fieldFunct3 w), envCsrOf (fieldFunct12 w) with
    | some (op, imm), some c => some (.csrEnv op imm c (fieldRd w) (fieldRs1 w))
    | _, _ => none

/-- A 32-bit base instruction; `ld` and `sd` need `XLEN` = 64 (log entry 35). -/
def decodeBase32 (xlen : Xlen) (w : BitVec 32) : Option BaseInstr :=
  if fieldOpcode w = opcodeSystem then decodeBaseSystem w
  else if w = wordRet then some .ret
  else if fieldOpcode w = opcodeOpImm ∧ fieldFunct3 w = 0b000 then
    some (.addi (fieldRd w) (fieldRs1 w) (fieldFunct12 w))
  else if fieldOpcode w = opcodeLoad ∧ fieldFunct3 w = 0b010 then
    some (.lw (fieldRd w) (fieldRs1 w) (fieldFunct12 w))
  else if fieldOpcode w = opcodeLoad ∧ fieldFunct3 w = 0b011 ∧ xlen = .rv64 then
    some (.ld (fieldRd w) (fieldRs1 w) (fieldFunct12 w))
  else if fieldOpcode w = opcodeStore ∧ fieldFunct3 w = 0b011 ∧ xlen = .rv64 then
    some (.sd (fieldRs2 w) (fieldRs1 w) (fieldStoreImm w))
  else if fieldOpcode w = opcodeBranch ∧ fieldFunct3 w = 0b000 then
    some (.beq (fieldRs1 w) (fieldRs2 w) (fieldBranchOff w))
  else none

/-- The register at bits 11:7 of a halfword. -/
def halfRd (h : BitVec 16) : RegIdx := h.extractLsb' 7 5
/-- The register at bits 6:2 of a halfword. -/
def halfRs2 (h : BitVec 16) : RegIdx := h.extractLsb' 2 5

/-- A 16-bit base instruction (95 section 5); the stack-relative forms need `XLEN` = 64 (log entry 35). -/
def decodeBase16 (xlen : Xlen) (h : BitVec 16) : Option BaseInstr :=
  if h.extractLsb' 0 2 = 0b01 ∧ h.extractLsb' 13 3 = 0b000 then
    some (.cAddi (halfRd h) (h.extractLsb' 12 1 ++ h.extractLsb' 2 5))
  else if h.extractLsb' 0 2 = 0b10 ∧ h.extractLsb' 13 3 = 0b111 ∧ xlen = .rv64 then
    some (.cSdsp (halfRs2 h) (h.extractLsb' 7 3 ++ h.extractLsb' 10 3))
  else if h.extractLsb' 0 2 = 0b10 ∧ h.extractLsb' 13 3 = 0b011 ∧ xlen = .rv64 then
    some (.cLdsp (halfRd h) (h.extractLsb' 2 3 ++ h.extractLsb' 12 1 ++ h.extractLsb' 5 2))
  else if h.extractLsb' 0 2 = 0b10 ∧ h.extractLsb' 12 4 = 0b1000 ∧ halfRs2 h = 0 then some (.cJr (halfRd h))
  else none

/-- The base instruction the fetched bytes hold. -/
def decodeBase (xlen : Xlen) : List Byte → Option BaseInstr
  | [b0, b1] => if isLong (halfOfBytes b0 b1) then none else decodeBase16 xlen (halfOfBytes b0 b1)
  | [b0, b1, b2, b3] => if isLong (halfOfBytes b0 b1) then decodeBase32 xlen (wordOfBytes b0 b1 b2 b3) else none
  | _ => none

/-! ## The encoder -/

/-- A word of the I-type shape. -/
def encodeI (imm : BitVec 12) (rs1 : RegIdx) (funct3 : BitVec 3) (rd : RegIdx) (opcode : BitVec 7) : BitVec 32 :=
  imm ++ rs1 ++ funct3 ++ rd ++ opcode

/-- The instruction's length in bytes. -/
def BaseInstr.ilen : BaseInstr → Nat
  | .mret | .sret | .csrEnv _ _ _ _ _ | .unimp | .addi _ _ _ | .lw _ _ _ | .ld _ _ _ | .sd _ _ _ => 4
  | .beq _ _ _ | .ret => 4
  | .cAddi _ _ | .cSdsp _ _ | .cLdsp _ _ | .cJr _ => 2

/-- The instruction's bits; a 16-bit instruction stands in bits 15:0. -/
def BaseInstr.word : BaseInstr → BitVec 32
  | .mret => wordMret
  | .sret => wordSret
  | .unimp => wordUnimp
  | .ret => wordRet
  | .csrEnv op imm c rd f => encodeI c.number f (op.funct3 imm) rd opcodeSystem
  | .addi rd rs1 imm => encodeI imm rs1 0b000 rd opcodeOpImm
  | .lw rd rs1 imm => encodeI imm rs1 0b010 rd opcodeLoad
  | .ld rd rs1 imm => encodeI imm rs1 0b011 rd opcodeLoad
  | .sd rs2 rs1 imm =>
    imm.extractLsb' 5 7 ++ rs2 ++ rs1 ++ (0b011 : BitVec 3) ++ imm.extractLsb' 0 5 ++ opcodeStore
  | .beq rs1 rs2 off =>
    off.extractLsb' 11 1 ++ off.extractLsb' 4 6 ++ rs2 ++ rs1 ++ (0b000 : BitVec 3) ++ off.extractLsb' 0 4 ++
      off.extractLsb' 10 1 ++ opcodeBranch
  | .cAddi rd imm =>
    (0 : BitVec 16) ++ ((0b000 : BitVec 3) ++ imm.extractLsb' 5 1 ++ rd ++ imm.extractLsb' 0 5 ++ (0b01 : BitVec 2))
  | .cSdsp rs2 off =>
    (0 : BitVec 16) ++ ((0b111 : BitVec 3) ++ off.extractLsb' 0 3 ++ off.extractLsb' 3 3 ++ rs2 ++ (0b10 : BitVec 2))
  | .cLdsp rd off =>
    (0 : BitVec 16) ++ ((0b011 : BitVec 3) ++ off.extractLsb' 2 1 ++ rd ++ off.extractLsb' 0 2 ++
      off.extractLsb' 3 3 ++ (0b10 : BitVec 2))
  | .cJr rs1 => (0 : BitVec 16) ++ ((0b1000 : BitVec 4) ++ rs1 ++ (0b00000 : BitVec 5) ++ (0b10 : BitVec 2))

/-- The bytes of a base instruction as they lie in memory. -/
def encodeBase (b : BaseInstr) : List Byte := bytesOfWord b.ilen b.word

/-- The instructions that exist only where `XLEN` = 64. -/
def BaseInstr.existsOn (xlen : Xlen) : BaseInstr → Bool
  | .ld _ _ _ | .sd _ _ _ | .cSdsp _ _ | .cLdsp _ _ => xlen == .rv64
  | .mret | .sret | .csrEnv _ _ _ _ _ | .unimp | .addi _ _ _ | .lw _ _ _ | .beq _ _ _ | .ret => true
  | .cAddi _ _ | .cJr _ => true

end Sys2Proof.Machine
end

