-- ==== Sys2Proof/Machine/CsrSsp.lean ====
section
/-! DEFINITION. The six Zicsr instructions on CSR 0x011, `ssp` (45_csr_access.md). -/

namespace Sys2Proof.Machine

/-- `SspCsrCheck()` (45 R146): the exception an access to `ssp` raises in the current mode, first match first, every
`SSE` field as read. -/
def State.sspCsrDenied (s : State) : Option Exc :=
  if s.priv != .machine && !s.menvcfgSse then some .illegalInstruction
  else match s.priv, s.v with
    | .user, false => if s.senvcfgSse false then none else some .illegalInstruction
    | .supervisor, true => if s.henvcfgSse then none else some .virtualInstruction
    | .user, true => if s.henvcfgSse && s.senvcfgSse true then none else some .virtualInstruction
    | .supervisor, false => none
    | .machine, _ => none

/-- A CSR instruction on `ssp`: check, read the old value, write `new` if there is one, put the old value in `x[rd]`
(45 R147 to R152). -/
def State.csrSsp (s : State) (rd : RegIdx) (new : Option Word) (word : BitVec 32) : State :=
  match s.sspCsrDenied with
  | some e => s.raiseInsn e word
  | none =>
    match new with
    | some v => ((s.writeSsp v).writeX rd s.readSsp).advance 4
    | none => (s.writeX rd s.readSsp).advance 4

/-- The set and clear forms write nothing when their operand field is zero (45 R148 to R152). -/
def unlessZero (field : RegIdx) (v : Word) : Option Word := if field = 0 then none else some v

/-- `CSRRW rd, ssp, rs1` (45 R147). -/
def execCsrrwSsp (rd rs1 : RegIdx) (s : State) : Host.Outcome State Fault Refusal :=
  .next (s.csrSsp rd (some (s.readX rs1)) (encodeWord (.csrrwSsp rd rs1)))

/-- `CSRRS rd, ssp, rs1` (45 R148). -/
def execCsrrsSsp (rd rs1 : RegIdx) (s : State) : Host.Outcome State Fault Refusal :=
  .next (s.csrSsp rd (unlessZero rs1 (s.readSsp ||| s.readX rs1)) (encodeWord (.csrrsSsp rd rs1)))

/-- `CSRRC rd, ssp, rs1` (45 R149). -/
def execCsrrcSsp (rd rs1 : RegIdx) (s : State) : Host.Outcome State Fault Refusal :=
  .next (s.csrSsp rd (unlessZero rs1 (s.readSsp &&& ~~~(s.readX rs1))) (encodeWord (.csrrcSsp rd rs1)))

/-- `CSRRWI rd, ssp, uimm` (45 R150). -/
def execCsrrwiSsp (rd uimm : RegIdx) (s : State) : Host.Outcome State Fault Refusal :=
  .next (s.csrSsp rd (some (zext5 uimm)) (encodeWord (.csrrwiSsp rd uimm)))

/-- `CSRRSI rd, ssp, uimm` (45 R151). -/
def execCsrrsiSsp (rd uimm : RegIdx) (s : State) : Host.Outcome State Fault Refusal :=
  .next (s.csrSsp rd (unlessZero uimm (s.readSsp ||| zext5 uimm)) (encodeWord (.csrrsiSsp rd uimm)))

/-- `CSRRCI rd, ssp, uimm` (45 R152). -/
def execCsrrciSsp (rd uimm : RegIdx) (s : State) : Host.Outcome State Fault Refusal :=
  .next (s.csrSsp rd (unlessZero uimm (s.readSsp &&& ~~~(zext5 uimm))) (encodeWord (.csrrciSsp rd uimm)))

end Sys2Proof.Machine
end

