-- ==== Sys2Proof/Machine/Base.lean ====
section
/-! DEFINITION. What the base instructions of BaseDecode.lean do. -/

namespace Sys2Proof.Machine

/-! ## Trap returns -/

/-- `MRET` (60 R171), in M-mode only. The privilege it needs is PRESUMED (log entry 35). -/
def State.mret (s : State) : State :=
  if s.priv = .machine then s.returnM else s.raiseInsn .illegalInstruction wordMret

/-- What `SRET` raises where it may not run: it needs S-mode to exist and a mode above U. PRESUMED (log entry 35). -/
def State.sretDenied (s : State) : Option Exc :=
  if !s.cfg.hasS then some .illegalInstruction
  else match s.priv, s.v with
    | .user, false => some .illegalInstruction
    | .user, true => some .virtualInstruction
    | .supervisor, _ | .machine, _ => none

/-- `SRET` (60 R171): the return of VS-mode with `V` = 1, of S-mode otherwise. -/
def State.sret (s : State) : State :=
  match s.sretDenied with
  | some e => s.raiseInsn e wordSret
  | none => if s.v then s.returnVs else s.returnS

/-! ## Arithmetic, memory and control (95_test_vectors.md section 5) -/

/-- `sext_N` of an immediate (00_scope.md section 5). -/
def sextImm {n : Nat} (imm : BitVec n) : Word := imm.signExtend 64

/-- The offset of a stack-relative compressed form: its bits 8:3 in place. -/
def stackOff (off : BitVec 6) : Word := off.setWidth 64 <<< 3

/-- `x[rd] <- x[rs1] + imm`. -/
def State.addImm (s : State) (rd rs1 : RegIdx) (imm : Word) (n : Nat) : State :=
  (s.writeX rd (s.readX rs1 + imm)).advance n

/-- `x[rd] <- ext (MemRead(va, k))`; a fault of the load is raised and nothing written. -/
def State.loadTo (s : State) (rd : RegIdx) (va : Word) (k : Nat) (ext : Word → Word) (n : Nat) : State :=
  match s.memRead va k with
  | .error (e, a) => s.raiseAddr e a
  | .ok w => (s.writeX rd (ext w)).advance n

/-- `MemWrite(va, k, w)`; a fault of the store is raised and nothing written. -/
def State.storeFrom (s : State) (va : Word) (k : Nat) (w : Word) (n : Nat) : State :=
  match s.memWrite va k w with
  | .error (e, a) => s.raiseAddr e a
  | .ok t => t.advance n

/-- `pc <- w & ~1`. -/
def State.jumpTo (s : State) (w : Word) : State := { s with pc := s.trunc (w &&& ~~~1#64) }

/-- `pc <- pc + off` if the registers are equal, `pc + 4` otherwise. -/
def State.branchEq (s : State) (rs1 rs2 : RegIdx) (off : Word) : State :=
  if s.readX rs1 = s.readX rs2 then { s with pc := s.trunc (s.pc + off) } else s.advance 4

/-! ## CSR instructions on the environment registers -/

/-- The value a CSR instruction writes, if it writes one (45 R147 to R152). -/
def CsrOp.newValue (op : CsrOp) (old : Word) (f : RegIdx) (v : Word) : Option Word :=
  match op with
  | .rw => some v
  | .rs => unlessZero f (old ||| v)
  | .rc => unlessZero f (old &&& ~~~v)

/-- The operand of a CSR instruction: a register, or the 5-bit immediate (30 R95). -/
def State.csrOperand (s : State) (imm : Bool) (f : RegIdx) : Word := if imm then zext5 f else s.readX f

/-- The meaning of a base instruction: always a next state. -/
def State.execBase (s : State) (b : BaseInstr) : State :=
  match b with
  | .mret => s.mret
  | .sret => s.sret
  | .csrEnv op imm c rd f =>
    s.csrEnv c rd (op.newValue (s.readEnv c) f (s.csrOperand imm f)) (BaseInstr.csrEnv op imm c rd f).word
  | .unimp => s.raiseInsn .illegalInstruction wordUnimp
  | .addi rd rs1 imm => s.addImm rd rs1 (sextImm imm) 4
  | .lw rd rs1 imm => s.loadTo rd (s.trunc (s.readX rs1 + sextImm imm)) 4 sext32 4
  | .ld rd rs1 imm => s.loadTo rd (s.trunc (s.readX rs1 + sextImm imm)) 8 id 4
  | .sd rs2 rs1 imm => s.storeFrom (s.trunc (s.readX rs1 + sextImm imm)) 8 (s.readX rs2) 4
  | .beq rs1 rs2 off => s.branchEq rs1 rs2 (sextImm off <<< 1)
  | .ret => s.jumpTo (s.readX 1)
  | .cAddi rd imm => s.addImm rd rd (sextImm imm) 2
  | .cSdsp rs2 off => s.storeFrom (s.trunc (s.readX 2 + stackOff off)) 8 (s.readX rs2) 2
  | .cLdsp rd off => s.loadTo rd (s.trunc (s.readX 2 + stackOff off)) 8 id 2
  | .cJr rs1 => s.jumpTo (s.readX rs1)

end Sys2Proof.Machine
end

