-- ==== Sys2Proof/Machine/AmoSwap.lean ====
section
/-! DEFINITION. `SSAMOSWAP.W` and `SSAMOSWAP.D` (43_ssamoswap.md). -/

namespace Sys2Proof.Machine

/-- `SSAmoEnabled()` (43 R126): the exception raised where the instruction may not execute in the current mode, first
match first, every `SSE` field as read. -/
def State.ssAmoDenied (s : State) : Option Exc :=
  if s.priv != .machine && !s.menvcfgSse then some .illegalInstruction
  else if !s.cfg.hasS then some .illegalInstruction
  else match s.priv, s.v with
    | .user, false => if s.senvcfgSse false then none else some .illegalInstruction
    | .supervisor, true => if s.henvcfgSse then none else some .virtualInstruction
    | .user, true => if s.senvcfgSse true then none else some .virtualInstruction
    | .supervisor, false => none
    | .machine, _ => none

/-- The swap of `n` bytes at `x[rs1]`: address and data are sampled before `x[rd]` is written (43 R133); `ext` is what
the loaded value becomes on its way to `x[rd]`. The read and the write are one atomic operation (20 R46), as every
step of the one hart is; `aq` and `rl` order it only for other harts (20 R63, log entry 16). -/
def State.ssAmoSwap (s : State) (n : Nat) (ext : Word → Word) (rd rs2 rs1 : RegIdx) (word : BitVec 32) : State :=
  match s.ssAmoDenied with
  | some e => s.raiseInsn e word
  | none =>
    s.withSsAccess .amoSwap (s.readX rs1) n fun pa =>
      ((s.storeAt pa n (s.readX rs2)).writeX rd (ext (s.mem.load pa n))).advance 4

/-- `SSAMOSWAP.W rd, rs2, (rs1)` (43 R125): the loaded word is sign-extended, the low 32 bits of `x[rs2]` stored. -/
def execSsamoswapW (rd rs2 rs1 : RegIdx) (aq rl : Bool) (s : State) : Host.Outcome State Fault Refusal :=
  .next (s.ssAmoSwap 4 sext32 rd rs2 rs1 (encodeWord (.ssamoswapW rd rs2 rs1 aq rl)))

/-- `SSAMOSWAP.D rd, rs2, (rs1)` (43 R128). With `XLEN` = 32 the word is no Zicfiss instruction and raises an
illegal-instruction exception (30 R90; before the enabling check: log entry 15). -/
def execSsamoswapD (rd rs2 rs1 : RegIdx) (aq rl : Bool) (s : State) : Host.Outcome State Fault Refusal :=
  match s.cfg.xlen with
  | .rv32 => .next (s.raiseInsn .illegalInstruction (encodeWord (.ssamoswapD rd rs2 rs1 aq rl)))
  | .rv64 => .next (s.ssAmoSwap 8 id rd rs2 rs1 (encodeWord (.ssamoswapD rd rs2 rs1 aq rl)))

end Sys2Proof.Machine
end

