-- ==== Sys2Proof/Machine/Mop.lean ====
section
/-! DEFINITION. The Zimop and Zcmop fallback, and the four May-Be-Operations (44_mop_fallback.md). -/

namespace Sys2Proof.Machine

/-- Zimop: write 0 to `rd`, read nothing, raise nothing (44 R135, R136). -/
def State.zimop (s : State) (rd : RegIdx) : State := (s.writeX rd 0).advance 4

/-- Zcmop: write no register, raise nothing (44 R137, R138). -/
def State.zcmop (s : State) : State := s.advance 2

/-- `MOP.RR.7 rd, rs1, rs2` (44 R135): the source registers are not used. -/
def execMopRr7 (rd _rs1 _rs2 : RegIdx) (s : State) : Host.Outcome State Fault Refusal := .next (s.zimop rd)

/-- `MOP.R.28 rd, rs1` (44 R136): the source register is not used. -/
def execMopR28 (rd _rs1 : RegIdx) (s : State) : Host.Outcome State Fault Refusal := .next (s.zimop rd)

/-- `C.MOP.1` (44 R137). -/
def execCMop1 (s : State) : Host.Outcome State Fault Refusal := .next s.zcmop

/-- `C.MOP.5` (44 R138). -/
def execCMop5 (s : State) : Host.Outcome State Fault Refusal := .next s.zcmop

end Sys2Proof.Machine
end

