-- ==== Sys2Proof/Machine/PopChk.lean ====
section
/-! DEFINITION. `SSPOPCHK x1`, `SSPOPCHK x5`, `C.SSPOPCHK x5` (41_sspopchk.md). -/

namespace Sys2Proof.Machine

/-- `ssp + XLEN/8` modulo `2^XLEN` (41 R110). -/
def State.popAddr (s : State) : Word := s.trunc (s.readSsp + BitVec.ofNat 64 s.entryBytes)

/-- `SSPopChkOp(src)` (41 R110): load the entry at `ssp`, compare all `XLEN` bits with `x[src]`, raise the shadow stack
fault if they differ (R114), else increment `ssp` (R116); with `xSSE` = 0 the fallback of the code point. -/
def State.ssPopChk (s : State) (src : RegIdx) (n : Nat) (fallback : State) : State :=
  if s.xSSE then
    s.withSsAccess .popChk s.readSsp s.entryBytes fun pa =>
      if s.mem.load pa s.entryBytes = s.readX src then (s.writeSsp s.popAddr).advance n
      else s.raiseSoftwareCheck
  else fallback

/-- `SSPOPCHK x1` (41 R111). -/
def execSspopchkX1 (s : State) : Host.Outcome State Fault Refusal := .next (s.ssPopChk 1 4 (s.zimop 0))

/-- `SSPOPCHK x5` (41 R112). -/
def execSspopchkX5 (s : State) : Host.Outcome State Fault Refusal := .next (s.ssPopChk 5 4 (s.zimop 0))

/-- `C.SSPOPCHK x5` (41 R113). -/
def execCSspopchkX5 (s : State) : Host.Outcome State Fault Refusal := .next (s.ssPopChk 5 2 s.zcmop)

end Sys2Proof.Machine
end

