-- ==== Sys2Proof/Machine/Push.lean ====
section
/-! DEFINITION. `SSPUSH x1`, `SSPUSH x5`, `C.SSPUSH x1` (40_sspush.md). -/

namespace Sys2Proof.Machine

/-- The new top of the shadow stack, `ssp - XLEN/8` modulo `2^XLEN` (40 R100). -/
def State.pushAddr (s : State) : Word := s.trunc (s.readSsp - BitVec.ofNat 64 s.entryBytes)

/-- `SSPushOp(src)` (40 R100): store `x[src]` at the new top, then, the store having completed, move `ssp` there
(R103); with `xSSE` = 0 the fallback of the code point. -/
def State.ssPush (s : State) (src : RegIdx) (n : Nat) (fallback : State) : State :=
  if s.xSSE then
    s.withSsAccess .push s.pushAddr s.entryBytes fun pa =>
      ((s.storeAt pa s.entryBytes (s.readX src)).writeSsp s.pushAddr).advance n
  else fallback

/-- `SSPUSH x1` (40 R101). -/
def execSspushX1 (s : State) : Host.Outcome State Fault Refusal := .next (s.ssPush 1 4 (s.zimop 0))

/-- `SSPUSH x5` (40 R102). -/
def execSspushX5 (s : State) : Host.Outcome State Fault Refusal := .next (s.ssPush 5 4 (s.zimop 0))

/-- `C.SSPUSH x1` (40 R106). -/
def execCSspushX1 (s : State) : Host.Outcome State Fault Refusal := .next (s.ssPush 1 2 s.zcmop)

end Sys2Proof.Machine
end

