-- ==== Sys2Proof/Machine/Rdp.lean ====
section
/-! DEFINITION. `SSRDP` (42_ssrdp.md). -/

namespace Sys2Proof.Machine

/-- `SSRDP rd` (42 R120): `ssp` where `xSSE` = 1, else 0 as `MOP.R.28` writes. It raises nothing in any mode. -/
def execSsrdp (rd : RegIdx) (s : State) : Host.Outcome State Fault Refusal :=
  .next (if s.xSSE then (s.writeX rd s.readSsp).advance 4 else s.zimop rd)

end Sys2Proof.Machine
end

