-- ==== Sys2Proof/Machine/Dispatch.lean ====
section
/-! DEFINITION. One arm per instruction, each one call of its meaning. -/

namespace Sys2Proof.Machine

def exec (i : Instr) (s : State) : Host.Outcome State Fault Refusal :=
  match i with
  | .sspushX1 => Sys2Proof.Machine.execSspushX1 s
  | .sspushX5 => Sys2Proof.Machine.execSspushX5 s
  | .cSspushX1 => Sys2Proof.Machine.execCSspushX1 s
  | .sspopchkX1 => Sys2Proof.Machine.execSspopchkX1 s
  | .sspopchkX5 => Sys2Proof.Machine.execSspopchkX5 s
  | .cSspopchkX5 => Sys2Proof.Machine.execCSspopchkX5 s
  | .ssrdp rd => Sys2Proof.Machine.execSsrdp rd s
  | .ssamoswapW rd rs2 rs1 aq rl => Sys2Proof.Machine.execSsamoswapW rd rs2 rs1 aq rl s
  | .ssamoswapD rd rs2 rs1 aq rl => Sys2Proof.Machine.execSsamoswapD rd rs2 rs1 aq rl s
  | .mopRr7 rd rs1 rs2 => Sys2Proof.Machine.execMopRr7 rd rs1 rs2 s
  | .mopR28 rd rs1 => Sys2Proof.Machine.execMopR28 rd rs1 s
  | .cMop1 => Sys2Proof.Machine.execCMop1 s
  | .cMop5 => Sys2Proof.Machine.execCMop5 s
  | .csrrwSsp rd rs1 => Sys2Proof.Machine.execCsrrwSsp rd rs1 s
  | .csrrsSsp rd rs1 => Sys2Proof.Machine.execCsrrsSsp rd rs1 s
  | .csrrcSsp rd rs1 => Sys2Proof.Machine.execCsrrcSsp rd rs1 s
  | .csrrwiSsp rd uimm => Sys2Proof.Machine.execCsrrwiSsp rd uimm s
  | .csrrsiSsp rd uimm => Sys2Proof.Machine.execCsrrsiSsp rd uimm s
  | .csrrciSsp rd uimm => Sys2Proof.Machine.execCsrrciSsp rd uimm s

end Sys2Proof.Machine
end

