-- ==== Sys2Proof/Machine/Fetch.lean ====
section
/-! DEFINITION. Instruction fetch: the bytes at the program counter, parcel by parcel, through the same check as every
implicit access (20_memory.md R60), with the length rule of 30_encoding.md R80. -/

namespace Sys2Proof.Machine

/-- The physical addresses of the two bytes of a parcel, in the current mode. -/
def State.fetchParcel (s : State) (va : Word) : Except (Exc × Word) (List Nat) :=
  s.ordinaryBytes .fetch s.priv s.v va 2

/-- The bytes of the instruction at `pc`: one parcel, and a second where the first announces a 32-bit instruction. A
fault carries the address of the byte that could not be fetched. DESIGN CHOICE: a second parcel or byte past the top of
the address space is fetched from address 0 on, modulo `2^XLEN`, which 91 N3 leaves open (log entry 36). -/
def State.fetch (s : State) : Except (Exc × Word) (List Byte) :=
  match s.fetchParcel s.pc with
  | .error f => .error f
  | .ok as =>
    match as.map (Memory.read s.mem) with
    | [b0, b1] =>
      if isLong (halfOfBytes b0 b1) then
        match s.fetchParcel (s.pcAfter 2) with
        | .error f => .error f
        | .ok as' => .ok (b0 :: b1 :: as'.map (Memory.read s.mem))
      else .ok [b0, b1]
    | bs => .ok bs

/-- Where the `k`-th byte at `pc` is fetched from; the address itself where the fetch faults. -/
def State.fetchAddr (s : State) (k : Nat) : Nat :=
  match s.ordinaryByte .fetch s.priv s.v (s.pcAfter k) with
  | .ok a => a
  | .error _ => (s.pcAfter k).toNat

/-- The memory with these bytes where the fetch at `pc` finds them, from the `k`-th on. -/
def State.placeFetched (s : State) (m : Memory) (k : Nat) (bs : List Byte) : Memory :=
  match bs with
  | [] => m
  | b :: bs => s.placeFetched (Memory.write m (s.fetchAddr k) b) (k + 1) bs

end Sys2Proof.Machine
end

