-- ==== Sys2Proof/Machine/Step.lean ====
section
/-! DEFINITION. One step: fetch at `pc`, decode with the current `xSSE`, run. -/

namespace Sys2Proof.Machine

/-- One step of the hart. A fetch that faults takes its exception, whose trap value is the faulting address (60 R160,
R166); `xSSE` selects the meaning of a word at the time it executes (30 R87). Bytes that are no instruction of the
opcode table are one of the base's to which the spec gives an effect, or are refused by name (00_scope.md section 3). -/
def step (s : State) : Host.Outcome State Fault Refusal :=
  match s.fetch with
  | .error (e, va) => .next (s.raiseAddr e va)
  | .ok bytes =>
    match decode s.xSSE bytes with
    | .ok i _ => exec i s
    | .reject why =>
      match decodeBase s.cfg.xlen bytes with
      | some b => .next (s.execBase b)
      | none => .refused (.outsideSpec why)

/-- `s` with the instruction whose bits are `w` (`nbits` of them, zero above) where the next fetch reads. -/
def State.withFetchWord (s : State) (nbits w : Nat) : State :=
  { s with mem := s.placeFetched s.mem 0 (bytesOfWord 4 (BitVec.ofNat 32 (w % 2 ^ nbits))) }

end Sys2Proof.Machine
end

