-- ==== Sys2Proof/Safety.lean ====
section
/-! DEFINITION. What a legal state is, what an instruction leaves alone, and what a safe run is, in the terms the
statements use. -/

namespace Sys2Proof.Machine

open Sys2Proof.Config

/-! ## Legal states -/

/-- The value is an `XLEN`-bit one. -/
abbrev FitsIn (x : Xlen) (w : Word) : Prop := truncTo x w = w

/-- An `XLEN`-bit even value, as every `pc` is. -/
abbrev PcFits (x : Xlen) (w : Word) : Prop := FitsIn x w ∧ w.getLsbD 0 = false

/-- The trap registers of one mode hold `XLEN`-bit values and an even `epc`. -/
abbrev TrapRegs.Legal (x : Xlen) (r : TrapRegs) : Prop :=
  PcFits x r.epc ∧ FitsIn x r.cause ∧ FitsIn x r.tval

/-- The mode is one the machine has (10 R25; 00_scope.md section 4): no `V` in M-mode or without the H extension, no
S-mode without S-mode. -/
abbrev State.ModeLegal (s : State) : Prop :=
  (s.priv = .machine → s.v = false) ∧ (s.v = true → s.cfg.hasH = true) ∧ (s.priv = .supervisor → s.cfg.hasS = true)

/-- The saved modes are ones the machine has. -/
abbrev State.SavedModeLegal (s : State) : Prop :=
  (s.mstatus.mpp = .supervisor → s.cfg.hasS = true) ∧ (s.mstatus.mpv = true → s.cfg.hasH = true) ∧
    (s.hstatusSpv = true → s.cfg.hasH = true)

/-- `x0`'s place holds zero and every register an `XLEN`-bit value (10 R10). -/
abbrev State.RegsLegal (s : State) : Prop := s.x[0] = 0 ∧ ∀ r : Fin 32, FitsIn s.cfg.xlen s.x[r]

/-- What every state the machine reaches satisfies: legal parameters and modes, `XLEN`-bit registers, `ssp` a legal
value (10 R13), an even `pc`, memory in canonical form. -/
abbrev State.Legal (s : State) : Prop :=
  s.cfg.Wf ∧ s.ModeLegal ∧ s.SavedModeLegal ∧ s.RegsLegal ∧ s.legalSsp s.ssp = s.ssp ∧ PcFits s.cfg.xlen s.pc ∧
    s.mTrap.Legal s.cfg.xlen ∧ s.sTrap.Legal s.cfg.xlen ∧ s.vsTrap.Legal s.cfg.xlen ∧
    FitsIn s.cfg.xlen s.mtval2 ∧ FitsIn s.cfg.xlen s.htval ∧ Memory.wf s.mem = true

/-! ## Frames -/

/-- The parameters, delegation, translation, PMP, PMA and the trap vectors are unchanged: what no instruction of this
spec and no trap writes (10 R26, R27; 60 R170). -/
def SameTables (s t : State) : Prop :=
  t.cfg = s.cfg ∧ t.medeleg = s.medeleg ∧ t.hedeleg = s.hedeleg ∧ t.satpMode = s.satpMode ∧
    t.vsatpMode = s.vsatpMode ∧ t.hgatpMode = s.hgatpMode ∧ t.mappings = s.mappings ∧ t.pmp = s.pmp ∧
    t.pma = s.pma ∧ t.mTrap.tvec = s.mTrap.tvec ∧ t.sTrap.tvec = s.sTrap.tvec ∧ t.vsTrap.tvec = s.vsTrap.tvec

/-- The environment configuration registers are unchanged: only a CSR write to one of them changes them (45 R153). -/
def SameEnv (s t : State) : Prop := t.menvcfg = s.menvcfg ∧ t.senvcfg = s.senvcfg ∧ t.henvcfg = s.henvcfg

/-- Both are unchanged: no instruction of the opcode table and no trap writes either. -/
def SamePlatform (s t : State) : Prop := SameTables s t ∧ SameEnv s t

/-- The mode, the status registers and the trap registers are unchanged, and no free value has been drawn. -/
def SameTrapState (s t : State) : Prop :=
  t.priv = s.priv ∧ t.v = s.v ∧ t.mstatus = s.mstatus ∧ t.hstatusSpv = s.hstatusSpv ∧ t.vsstatus = s.vsstatus ∧
    t.mTrap = s.mTrap ∧ t.sTrap = s.sTrap ∧ t.vsTrap = s.vsTrap ∧ t.mtval2 = s.mtval2 ∧ t.htval = s.htval ∧
    t.draws = s.draws

/-- Every integer register reads as before. -/
def SameRegs (s t : State) : Prop := ∀ r, t.readX r = s.readX r

/-- Every integer register but `rd` reads as before. -/
def SameRegsBut (rd : RegIdx) (s t : State) : Prop := ∀ r, r ≠ rd → t.readX r = s.readX r

/-- Every byte of memory reads as before. -/
def SameMemory (s t : State) : Prop := ∀ a, Memory.read t.mem a = Memory.read s.mem a

/-- Every byte of memory outside the `n` bytes at physical address `pa` reads as before. -/
def SameMemoryOutside (pa n : Nat) (s t : State) : Prop :=
  ∀ a, a < pa ∨ pa + n ≤ a → Memory.read t.mem a = Memory.read s.mem a

/-- The exception `e` raised in `s` with trap value `tval` has been taken in `t`: the trap registers of the target
mode hold the `pc` of the instruction, the cause and the trap value, the status registers the previous mode and
interrupt enable, and the target's handler runs (60 R170). -/
def TrapTaken (s : State) (e : Exc) (tval : Word) (t : State) : Prop :=
  match s.trapTarget e with
  | .m =>
    t.mTrap = ⟨s.pc, BitVec.ofNat 64 e.code, s.trunc tval, s.mTrap.tvec⟩ ∧
    t.mstatus = { s.mstatus with mpp := s.priv, mpv := if s.cfg.hasH then s.v else s.mstatus.mpv,
                                 mpie := s.mstatus.mie, mie := false } ∧
    t.priv = .machine ∧ t.v = false ∧ t.pc = s.tvecBase s.mTrap.tvec ∧
    t.sTrap = s.sTrap ∧ t.vsTrap = s.vsTrap ∧ t.hstatusSpv = s.hstatusSpv ∧ t.vsstatus = s.vsstatus
  | .s =>
    t.sTrap = ⟨s.pc, BitVec.ofNat 64 e.code, s.trunc tval, s.sTrap.tvec⟩ ∧
    t.mstatus = { s.mstatus with spp := s.priv == .supervisor, spie := s.mstatus.sie, sie := false } ∧
    t.hstatusSpv = (if s.cfg.hasH then s.v else s.hstatusSpv) ∧
    t.priv = .supervisor ∧ t.v = false ∧ t.pc = s.tvecBase s.sTrap.tvec ∧
    t.mTrap = s.mTrap ∧ t.vsTrap = s.vsTrap ∧ t.vsstatus = s.vsstatus
  | .vs =>
    t.vsTrap = ⟨s.pc, BitVec.ofNat 64 e.code, s.trunc tval, s.vsTrap.tvec⟩ ∧
    t.vsstatus = { s.vsstatus with spp := s.priv == .supervisor, spie := s.vsstatus.sie, sie := false } ∧
    t.priv = .supervisor ∧ t.v = true ∧ t.pc = s.tvecBase s.vsTrap.tvec ∧
    t.mTrap = s.mTrap ∧ t.sTrap = s.sTrap ∧ t.mstatus = s.mstatus ∧ t.hstatusSpv = s.hstatusSpv

/-- The instruction that raised has written nothing: registers, `ssp`, memory and platform as before (60 R168). -/
def NothingWritten (s t : State) : Prop :=
  SameRegs s t ∧ t.readSsp = s.readSsp ∧ SameMemory s t ∧ SamePlatform s t

/-! ## Safe runs -/

/-- The step answers a next state: the hart neither stops nor leaves this spec. -/
def SafeStep (s : State) : Prop := ∃ t, step s = .next t

/-- `k` steps from `s` all answer a next state. -/
def SafeFor (k : Nat) (s : State) : Prop := ∃ t, Host.Core.run Sys2Proof.core k s = .next t

end Sys2Proof.Machine
end

