-- ==== Sys2Proof/Certificates/Slice0/Obligations.lean ====
section
/-! DEFINITION. The statements for the provers. -/

open Sys2Proof Sys2Proof.Machine Sys2Proof.Config

/-! ## Terms the statements share -/

namespace Sys2Proof.Machine

/-- All that is neither a register, nor memory, nor `pc`, nor `ssp`, is unchanged. -/
def SameRest (s t : State) : Prop := SamePlatform s t ∧ SameTrapState s t

/-- `t` is `s` after an exception: nothing written by the instruction, the exception `e` taken with the faulting
address `va` as its trap value where trap values are informative. -/
def AddrTrap (s : State) (e : Exc) (va : Word) (t : State) : Prop :=
  NothingWritten s t ∧ TrapTaken s e (if s.cfg.xtvalAddr then va else 0) t

/-- The same for an illegal- or virtual-instruction exception of the instruction word `w`, the trap value being the
word where trap values are informative. -/
def WordTrap (s : State) (e : Exc) (w : BitVec 32) (t : State) : Prop :=
  NothingWritten s t ∧ TrapTaken s e (if s.cfg.xtvalAddr && s.cfg.xtvalInsn then w.setWidth 64 else 0) t

/-- The same of the instruction `i` of the opcode table. -/
def InsnTrap (s : State) (e : Exc) (i : Instr) (t : State) : Prop := WordTrap s e (encodeWord i) t

/-- The push `i` of `x[src]`, `n` bytes long, performs its store and moves `ssp`. -/
def PushCompletes (i : Instr) (src : RegIdx) (n : Nat) : Prop :=
  ∀ s : State, s.cfg.Wf → s.xSSE = true → s.ssFaults .push s.pushAddr s.entryBytes = [] →
    ∃ t, exec i s = .next t ∧
      Memory.load t.mem (s.ssAddr .push s.pushAddr s.entryBytes) s.entryBytes = s.readX src ∧
      SameMemoryOutside (s.ssAddr .push s.pushAddr s.entryBytes) s.entryBytes s t ∧
      t.readSsp = s.trunc (s.readSsp - BitVec.ofNat 64 s.entryBytes) ∧
      t.pc = s.pcAfter n ∧ SameRegs s t ∧ SameRest s t

/-- The push `i`, its access refused, raises a fault that applies and writes nothing. -/
def PushFaults (i : Instr) : Prop :=
  ∀ (s : State) (e : Exc) (es : List Exc), s.xSSE = true →
    s.ssFaults .push (s.trunc (s.readSsp - BitVec.ofNat 64 s.entryBytes)) s.entryBytes = e :: es →
    ∃ t, exec i s = .next t ∧
      AddrTrap s (s.reported e es) (s.trunc (s.readSsp - BitVec.ofNat 64 s.entryBytes)) t

/-- The pop `i` of `x[src]`, `n` bytes long, finds the value it checks and increments `ssp`. -/
def PopCompletes (i : Instr) (src : RegIdx) (n : Nat) : Prop :=
  ∀ s : State, s.cfg.Wf → s.xSSE = true → s.ssFaults .popChk s.readSsp s.entryBytes = [] →
    Memory.load s.mem (s.ssAddr .popChk s.readSsp s.entryBytes) s.entryBytes = s.readX src →
    ∃ t, exec i s = .next t ∧ t.readSsp = s.trunc (s.readSsp + BitVec.ofNat 64 s.entryBytes) ∧
      t.pc = s.pcAfter n ∧ SameRegs s t ∧ SameMemory s t ∧ SameRest s t

/-- The pop `i` of `x[src]` finds another value and raises the shadow stack fault. -/
def PopMismatches (i : Instr) (src : RegIdx) : Prop :=
  ∀ s : State, s.xSSE = true → s.ssFaults .popChk s.readSsp s.entryBytes = [] →
    Memory.load s.mem (s.ssAddr .popChk s.readSsp s.entryBytes) s.entryBytes ≠ s.readX src →
    ∃ t, exec i s = .next t ∧ NothingWritten s t ∧ TrapTaken s .softwareCheck 3 t

/-- The pop `i`, its access refused, raises a fault that applies, whatever memory and `x[src]` hold. -/
def PopFaults (i : Instr) : Prop :=
  ∀ (s : State) (e : Exc) (es : List Exc), s.xSSE = true →
    s.ssFaults .popChk s.readSsp s.entryBytes = e :: es →
    ∃ t, exec i s = .next t ∧ AddrTrap s (s.reported e es) s.readSsp t

/-- The word `i`, `n` bytes long, changes nothing but `pc` where Zicfiss is inactive. -/
def InactiveOnlyAdvances (i : Instr) (n : Nat) : Prop :=
  ∀ s : State, s.xSSE = false → exec i s = .next { s with pc := s.pcAfter n }

/-- The CSR instruction `i` completes: `ssp` becomes `new s`, `x[rd]` receives the old value. -/
def CsrCompletes (i : Instr) (rd : RegIdx) (new : State → Word) : Prop :=
  ∀ s : State, s.sspCsrDenied = none →
    ∃ t, exec i s = .next t ∧ t.readSsp = new s ∧ (rd ≠ 0 → t.readX rd = s.readSsp) ∧ SameRegsBut rd s t ∧
      SameMemory s t ∧ t.pc = s.pcAfter 4 ∧ SameRest s t

/-- The swap `i` of `n` bytes of `x[rs2]` at `x[rs1]` completes, `x[rd]` receiving `ext` of the loaded value. -/
def SwapCompletes (i : Instr) (n : Nat) (ext : Word → Word) (rd rs2 rs1 : RegIdx) (s : State) : Prop :=
  s.ssAmoDenied = none → s.ssFaults .amoSwap (s.readX rs1) n = [] →
    ∃ t, exec i s = .next t ∧
      (rd ≠ 0 → t.readX rd = ext (Memory.load s.mem (s.ssAddr .amoSwap (s.readX rs1) n) n)) ∧
      SameRegsBut rd s t ∧
      (∀ k < n, Memory.read t.mem (s.ssAddr .amoSwap (s.readX rs1) n + k) = (s.readX rs2).extractLsb' (8 * k) 8) ∧
      SameMemoryOutside (s.ssAddr .amoSwap (s.readX rs1) n) n s t ∧
      t.readSsp = s.readSsp ∧ t.pc = s.pcAfter 4 ∧ SameRest s t

/-- The swap `i` of `n` bytes at `x[rs1]`, its access refused, raises a fault that applies and writes nothing. -/
def SwapFaults (i : Instr) (n : Nat) (rs1 : RegIdx) (s : State) : Prop :=
  ∀ (e : Exc) (es : List Exc), s.ssAmoDenied = none → s.ssFaults .amoSwap (s.readX rs1) n = e :: es →
    ∃ t, exec i s = .next t ∧ AddrTrap s (s.reported e es) (s.readX rs1) t

/-- The address of the `k`-th byte of an access at `va`; past the top of the address space the model goes on at 0, its
own choice (log entry 36). -/
def State.byteAddr (s : State) (va : Word) (k : Nat) : Word := if k = 0 then va else s.trunc (va + BitVec.ofNat 64 k)

/-- In M-mode `mstatus.MPRV` = 1 with `MPP` below M: explicit accesses are checked as in that mode (92 D27). -/
def AccessesAsPrevious (s : State) : Prop := s.priv = .machine ∧ s.mstatus.mprv = true ∧ s.mstatus.mpp ≠ .machine

/-- `m`, `m & h` with `V` = 1: where the SS encoding is defined (20 R49), without S-mode nowhere. -/
def ssEnables (s : State) (v : Bool) : Bool :=
  s.cfg.hasS && s.menvcfg.getLsbD 3 && (!v || s.henvcfg.getLsbD 3)

/-- What a CSR instruction writes to the environment register `c`, if it writes it (the forms of 45 R147 to R152). -/
def envWritten (s : State) (op : CsrOp) (imm : Bool) (c : EnvCsr) (f : RegIdx) : Option Word :=
  let v := if imm then f.setWidth 64 else s.readX f
  match op with
  | .rw => some v
  | .rs => if f = 0 then none else some (s.readEnv c ||| v)
  | .rc => if f = 0 then none else some (s.readEnv c &&& ~~~v)

/-- A write to a high half, `menvcfgh` or `henvcfgh`, puts the value's low 32 bits in bits 63:32 and keeps the low half
(92 D7); a write to `henvcfg` or `senvcfg` keeps the bits from `XLEN` on; none touches another register or draws a free
value. -/
def WritesItsHalf (s : State) : Prop :=
  ∀ w : Word,
    (∀ k < 64, (s.writeEnv .menvcfgh w).menvcfg.getLsbD k =
      if k < 32 then s.menvcfg.getLsbD k else w.getLsbD (k - 32)) ∧
    (∀ k < 64, (s.writeEnv .henvcfgh w).henvcfg.getLsbD k =
      if k < 32 then s.henvcfg.getLsbD k else w.getLsbD (k - 32)) ∧
    (∀ k < 64, xlenBits s.cfg.xlen ≤ k →
      (s.writeEnv .henvcfg w).henvcfg.getLsbD k = s.henvcfg.getLsbD k ∧
      (s.writeEnv .senvcfg w).senvcfg.getLsbD k = s.senvcfg.getLsbD k) ∧
    s.writeEnv .henvcfg w = s.writeHenvcfg w ∧ s.writeEnv .senvcfg w = s.writeSenvcfg w ∧
    (∀ c, c ≠ .menvcfg → (s.writeEnv c w).draws = s.draws) ∧
    (∀ c, c ≠ .menvcfg → c ≠ .menvcfgh → (s.writeEnv c w).menvcfg = s.menvcfg) ∧
    (∀ c, c ≠ .menvcfg → c ≠ .henvcfg → c ≠ .henvcfgh → (s.writeEnv c w).henvcfg = s.henvcfg) ∧
    ∀ c, c ≠ .menvcfg → c ≠ .senvcfg → (s.writeEnv c w).senvcfg = s.senvcfg

/-- `t` is `s` after an instruction of `n` bytes that wrote `w` to `x[rd]` and nothing else. -/
def OnlyWrites (s : State) (rd : RegIdx) (w : Word) (n : Nat) (t : State) : Prop :=
  (rd ≠ 0 → t.readX rd = w) ∧ SameRegsBut rd s t ∧ t.readSsp = s.readSsp ∧ SameMemory s t ∧ t.pc = s.pcAfter n ∧
    SameRest s t

/-- `t` is `s` after a jump to `pc`. -/
def OnlyJumps (s : State) (pc : Word) (t : State) : Prop := NothingWritten s t ∧ SameTrapState s t ∧ t.pc = pc

/-- The base load `b` of `k` bytes at `va`, `n` bytes long, puts `ext` of what is loaded in `x[rd]`, or takes the
load's fault. -/
def BaseLoads (s : State) (b : BaseInstr) (rd : RegIdx) (va : Word) (k : Nat) (ext : Word → Word) (n : Nat) : Prop :=
  (∀ w, s.memRead va k = .ok w → OnlyWrites s rd (s.trunc (ext w)) n (s.execBase b)) ∧
    ∀ e a, s.memRead va k = .error (e, a) → AddrTrap s e a (s.execBase b)

/-- The base store `b` of the doubleword `w` at `va`, `n` bytes long, writes its bytes to the places the access check
gives and nothing else, or takes the store's fault. -/
def BaseStores (s : State) (b : BaseInstr) (va w : Word) (n : Nat) : Prop :=
  (∀ as, s.ordinaryBytes .store s.effMode.1 s.effMode.2 va 8 = .ok as →
    as.length = 8 ∧
    (as.Nodup → ∀ k a, as[k]? = some a → Memory.read (s.execBase b).mem a = w.extractLsb' (8 * k) 8) ∧
    (∀ a, a ∉ as → Memory.read (s.execBase b).mem a = Memory.read s.mem a) ∧
    SameRegs s (s.execBase b) ∧ (s.execBase b).readSsp = s.readSsp ∧ (s.execBase b).pc = s.pcAfter n ∧
    SameRest s (s.execBase b)) ∧
  ∀ e a, s.ordinaryBytes .store s.effMode.1 s.effMode.2 va 8 = .error (e, a) → AddrTrap s e a (s.execBase b)

/-- The exception of a failed walk, by the access's own type (20 R49; 93 U1, U2), but for an implicit access of VS-stage
translation, which has its own (60 R165). -/
def ordinaryExc : AccessKind → WalkFault → Exc
  | _, .implicitGuestRead => .loadGuestPageFault
  | _, .implicitGuestWrite => .storeGuestPageFault
  | .fetch, .page => .instrPageFault
  | .fetch, .access => .instrAccessFault
  | .fetch, .guestPage => .instrGuestPageFault
  | .load, .page => .loadPageFault
  | .load, .access => .loadAccessFault
  | .load, .guestPage => .loadGuestPageFault
  | .store, .page | .ssPush, .page | .ssPopChk, .page | .ssAmoSwap, .page => .storePageFault
  | .store, .access | .ssPush, .access | .ssPopChk, .access | .ssAmoSwap, .access => .storeAccessFault
  | .store, .guestPage | .ssPush, .guestPage | .ssPopChk, .guestPage | .ssAmoSwap, .guestPage => .storeGuestPageFault

/-- The mode a fetch, or another access, is checked with (92 D27). -/
def accessMode (s : State) (kind : AccessKind) : Priv × Bool := if kind = .fetch then (s.priv, s.v) else s.effMode

/-- Below M-mode a byte of an ordinary access whose walk fails is refused by the fault of the access's own type, and one
that a G-stage leaf which may be written and not read holds (`010b`, reserved there: 20 R49, R55; 93 U2; `110b`, log entry
20) is refused, by a guest-page fault of that type unless the page type or `U` and `SUM` refuse it before. -/
def OrdinaryByteFaults (s : State) (kind : AccessKind) (p : Priv) (v : Bool) (va : Word) : Prop :=
  (s.isBare v = false →
    (∀ f, s.translate kind va 1 p v = .fault f → s.ordinaryByte kind p v va = .error (ordinaryExc kind f)) ∧
    ∀ l g, s.translate kind va 1 p v = .leaf l → l.g = some g → g.r = false → g.w = true →
      (∃ e, s.ordinaryByte kind p v va = .error e) ∧
      (pageRefuses kind (s.mxrBit v) l.page = none → s.ordinaryUserOk kind p v l.u = true →
        s.ordinaryByte kind p v va = .error (ordinaryExc kind .guestPage))) ∧
  (s.isBare v = true → v = true → s.hgatpMode = .paged →
    (findMapping s.mappings .gOnly kind va.toNat = none →
      s.ordinaryByte kind p v va = .error (ordinaryExc kind .guestPage)) ∧
    ∀ m, findMapping s.mappings .gOnly kind va.toNat = some m →
      (∀ f, m.entry = .fault f → s.ordinaryByte kind p v va = .error (ordinaryExc kind f)) ∧
      ∀ page u g base, m.entry = .leaf page u g base → g.r = false → g.w = true →
        s.ordinaryByte kind p v va = .error (ordinaryExc kind .guestPage))

/-- An ordinary load or store at `va`, or the fetch there, ends in the exception `e` of its `k`-th byte, the bytes before
it lying at `pa`: nothing is loaded or stored, and the step takes what the fetch raises. -/
def OrdinaryAccessStops (s : State) (kind : AccessKind) (va : Word) (k : Nat) (pa : Nat → Nat) (e : Exc) : Prop :=
  match kind with
  | .fetch => va = s.pc → k < 4 →
    (2 ≤ k → isLong (halfOfBytes (Memory.read s.mem (pa 0)) (Memory.read s.mem (pa 1))) = true) →
    step s = .next (s.raiseAddr e (s.byteAddr va k))
  | .load => ∀ n, k < n → s.memRead va n = .error (e, s.byteAddr va k)
  | .store => ∀ n w, k < n → s.memWrite va n w = .error (e, s.byteAddr va k)
  | .ssPush | .ssPopChk | .ssAmoSwap => True

/-- Bytes in which the base decoder reads a store. -/
def IsBaseStore (s : State) (bytes : List Byte) : Prop :=
  ∃ rs2, (∃ rs1 imm, decodeBase s.cfg.xlen bytes = some (.sd rs2 rs1 imm)) ∨
    ∃ off, decodeBase s.cfg.xlen bytes = some (.cSdsp rs2 off)

/-- The pushes and swaps of the opcode table. -/
def WritesMemory (i : Instr) : Prop :=
  i = .sspushX1 ∨ i = .sspushX5 ∨ i = .cSspushX1 ∨
    ∃ rd rs2 rs1 aq rl, i = .ssamoswapW rd rs2 rs1 aq rl ∨ i = .ssamoswapD rd rs2 rs1 aq rl

/-- A 5-bit field at bit `k` of an instruction word. -/
def fieldAt (f : RegIdx) (k : Nat) : BitVec 32 := f.setWidth 32 <<< k

/-- A one-bit field at bit `k` of an instruction word. -/
def bitAt (b : Bool) (k : Nat) : BitVec 32 := (BitVec.ofBool b).setWidth 32 <<< k

/-- The pseudocode of 20 R52, (a) to (j): the exception it raises first, if any. -/
def ssFirstFault (s : State) (op : SsOp) (va : Word) (n : Nat) : Option Exc :=
  if va.toNat % n ≠ 0 then
    some (if op = .amoSwap ∧ s.cfg.amoMisaligned = .addressMisaligned then .storeMisaligned else .storeAccessFault)
  else if s.effMode.1 = .machine then some .storeAccessFault
  else if s.isBare s.effMode.2 = true then some .storeAccessFault
  else match s.translate op.kind va n s.effMode.1 s.effMode.2 with
    | .fault .page => some .storePageFault
    | .fault .access => some .storeAccessFault
    | .fault .guestPage => some .storeGuestPageFault
    | .fault .implicitGuestRead => some .loadGuestPageFault
    | .fault .implicitGuestWrite => some .storeGuestPageFault
    | .leaf l =>
      if l.page = .readOnly ∨ l.page = .writeExecute then some .storePageFault
      else if l.page ≠ .shadowStack then some .storeAccessFault
      else if s.effMode.1 = .user ∧ l.u = false then some .storePageFault
      else if s.effMode.1 = .supervisor ∧ l.u = true ∧ s.sumBit s.effMode.2 = false then some .storePageFault
      else if ∃ g ∈ l.g, (g.r && g.w) = false then some .storeGuestPageFault
      else if (l.pmp.r && l.pmp.w) = false then some .storeAccessFault
      else if l.idempotent = false then some .storeAccessFault
      else if op = .amoSwap ∧ l.amoswap = false then some .storeAccessFault
      else none

end Sys2Proof.Machine

/-! ## Decoding, encoding and the step -/

/-- Words written out in 30_encoding.md decode to their instructions, those with two meanings under each setting of
`xSSE`. -/
def Obligations.ListedWordsDecode : Prop :=
  decode true [0x73, 0x40, 0x10, 0xCE] = .ok .sspushX1 [] ∧
  decode false [0x73, 0x40, 0x10, 0xCE] = .ok (.mopRr7 0 0 1) [] ∧
  decode true [0x73, 0xC0, 0xC2, 0xCD] = .ok .sspopchkX5 [] ∧
  decode false [0x73, 0xC0, 0xC2, 0xCD] = .ok (.mopR28 0 5) [] ∧
  decode true [0x81, 0x60] = .ok .cSspushX1 [] ∧
  decode false [0x81, 0x60] = .ok .cMop1 [] ∧
  decode true [0x81, 0x62] = .ok .cSspopchkX5 [] ∧
  decode false [0x81, 0x62] = .ok .cMop5 [] ∧
  decode true [0xF3, 0x42, 0xC0, 0xCD] = .ok (.ssrdp 5) [] ∧
  decode false [0xF3, 0x42, 0xC0, 0xCD] = .ok (.mopR28 5 0) [] ∧
  decode true [0x73, 0x40, 0xC0, 0xCD] = .ok (.mopR28 0 0) [] ∧
  decode true [0xF3, 0x40, 0x10, 0xCE] = .ok (.mopRr7 1 0 1) [] ∧
  decode true [0xAF, 0x25, 0xC5, 0x4C] = .ok (.ssamoswapW 11 12 10 true false) [] ∧
  decode true [0xAF, 0x30, 0x05, 0x48] = .ok (.ssamoswapD 1 0 10 false false) [] ∧
  decode true [0xF3, 0x90, 0x10, 0x01] = .ok (.csrrwSsp 1 1) []

/-- The encoder writes the words and patterns the instruction rules give (40 R101 to R106, 41 R111 to R113, 42 R120,
43 R125 and R128, 44 R135 to R138, 45 R147 to R152). -/
def Obligations.EncodingsAreTheListedWords : Prop :=
  (encodeWord .sspushX1 = 0xCE104073 ∧ encodeWord .sspushX5 = 0xCE504073 ∧ encodeWord .cSspushX1 = 0x6081 ∧
    encodeWord .sspopchkX1 = 0xCDC0C073 ∧ encodeWord .sspopchkX5 = 0xCDC2C073 ∧ encodeWord .cSspopchkX5 = 0x6281 ∧
    encodeWord .cMop1 = 0x6081 ∧ encodeWord .cMop5 = 0x6281) ∧
  (∀ rd rs2 rs1 aq rl,
    encodeWord (.ssamoswapW rd rs2 rs1 aq rl) =
      0x4800202F ||| bitAt aq 26 ||| bitAt rl 25 ||| fieldAt rs2 20 ||| fieldAt rs1 15 ||| fieldAt rd 7 ∧
    encodeWord (.ssamoswapD rd rs2 rs1 aq rl) =
      0x4800302F ||| bitAt aq 26 ||| bitAt rl 25 ||| fieldAt rs2 20 ||| fieldAt rs1 15 ||| fieldAt rd 7) ∧
  (∀ rd rs1 rs2, encodeWord (.mopRr7 rd rs1 rs2) = 0xCE004073 ||| fieldAt rs2 20 ||| fieldAt rs1 15 ||| fieldAt rd 7) ∧
  ∀ rd f,
    encodeWord (.ssrdp rd) = 0xCDC04073 ||| fieldAt rd 7 ∧
    encodeWord (.mopR28 rd f) = 0xCDC04073 ||| fieldAt f 15 ||| fieldAt rd 7 ∧
    encodeWord (.csrrwSsp rd f) = 0x01101073 ||| fieldAt f 15 ||| fieldAt rd 7 ∧
    encodeWord (.csrrsSsp rd f) = 0x01102073 ||| fieldAt f 15 ||| fieldAt rd 7 ∧
    encodeWord (.csrrcSsp rd f) = 0x01103073 ||| fieldAt f 15 ||| fieldAt rd 7 ∧
    encodeWord (.csrrwiSsp rd f) = 0x01105073 ||| fieldAt f 15 ||| fieldAt rd 7 ∧
    encodeWord (.csrrsiSsp rd f) = 0x01106073 ||| fieldAt f 15 ||| fieldAt rd 7 ∧
    encodeWord (.csrrciSsp rd f) = 0x01107073 ||| fieldAt f 15 ||| fieldAt rd 7

/-- Decoding the encoding of a well-formed instruction gives it back, under each setting of `xSSE` that gives its word
that meaning (30 R87, R88). -/
def Obligations.DecodeInvertsEncode : Prop :=
  ∀ (i : Instr) (active : Bool) (rest : List Byte), WellFormed i = true → ReadsUnder active i = true →
    decode active (encode i ++ rest) = .ok i rest

/-- What decoding accepts is well-formed, has that meaning under that setting, and encodes to the bytes it was read
from: no word is read as two instructions and no bit of it is dropped. -/
def Obligations.EncodeInvertsDecode : Prop :=
  ∀ (active : Bool) (bytes : List Byte) (i : Instr) (rest : List Byte), decode active bytes = .ok i rest →
    encode i ++ rest = bytes ∧ WellFormed i = true ∧ ReadsUnder active i = true

/-- Where `xSSE` = 0, the Zicfiss reading of a word does what its Zimop or Zcmop reading does, so a model may decode to
either (30 R87). -/
def Obligations.InactiveReadingsAgree : Prop :=
  ∀ (bytes : List Byte) (i j : Instr) (r r' : List Byte) (s : State), s.xSSE = false →
    decode true bytes = .ok i r → decode false bytes = .ok j r' → exec i s = exec j s

/-- A step runs the instruction its fetched bytes decode to under the current `xSSE`; a fetch that faults takes its
exception; bytes that are none of the opcode table's run the base instruction they hold, and are refused by name where
the spec gives them no effect (00 section 3, 95 section 5; log entries 18 and 35). -/
def Obligations.StepRunsTheDecodedInstruction : Prop :=
  ∀ s : State,
    (∀ bytes i rest, s.fetch = .ok bytes → decode s.xSSE bytes = .ok i rest → step s = exec i s) ∧
    (∀ e va, s.fetch = .error (e, va) → step s = .next (s.raiseAddr e va)) ∧
    (∀ bytes why, s.fetch = .ok bytes → decode s.xSSE bytes = .reject why →
      (∀ b, decodeBase s.cfg.xlen bytes = some b → step s = .next (s.execBase b)) ∧
      (decodeBase s.cfg.xlen bytes = none → step s = .refused (.outsideSpec why)))

/-- In M-mode a step runs the instruction whose encoding lies in executable memory at `pc`, lowest byte first. That M-mode
fetches by physical address is the base's rule, PRESUMED (log entry 20), and that no PMA is asked the model's choice (log
entry 37). -/
def Obligations.StepRunsTheInstructionInMemory : Prop :=
  ∀ (s : State) (i : Instr), s.priv = .machine → WellFormed i = true → ReadsUnder false i = true →
    s.pc.toNat + ilen i ≤ 2 ^ xlenBits s.cfg.xlen →
    (∀ k < ilen i, (pmpAt s.pmp .machine (s.pc.toNat + k)).x = true) →
    (∀ k < ilen i, (encode i)[k]? = some (Memory.read s.mem (s.pc.toNat + k))) →
    step s = exec i s

/-- A fetch that meets an SS page at its `k`-th byte, the bytes before it fetched, raises an instruction access fault
with that byte's address, and the step takes it (20 R60). That it does so before `U`, the G-stage and the PMP are asked
is the base's order, PRESUMED (log entry 20). -/
def Obligations.FetchFromShadowStackPageFaults : Prop :=
  ∀ (s : State) (k : Nat) (pa : Nat → Nat) (l : Leaf), k < 4 → s.priv ≠ .machine → s.isBare s.v = false →
    (∀ j < k, s.ordinaryByte .fetch s.priv s.v (s.byteAddr s.pc j) = .ok (pa j)) →
    (2 ≤ k → isLong (halfOfBytes (Memory.read s.mem (pa 0)) (Memory.read s.mem (pa 1))) = true) →
    s.translate .fetch (s.byteAddr s.pc k) 1 s.priv s.v = .leaf l → l.page = .shadowStack →
    ∃ t, step s = .next t ∧ AddrTrap s .instrAccessFault (s.byteAddr s.pc k) t

/-! ## The enable bits, `xSSE`, `ssp` and the registers -/

/-- `xSSE` in every mode, in terms of the stored bits (10 R24). -/
def Obligations.XsseByModeAndStoredBits : Prop :=
  ∀ s : State,
    (s.priv = .machine ∨ s.cfg.hasS = false → s.xSSE = false) ∧
    (s.cfg.hasS = true →
      (s.priv = .supervisor → s.v = false → s.xSSE = s.menvcfg.getLsbD 3) ∧
      (s.priv = .supervisor → s.v = true → s.xSSE = (s.menvcfg.getLsbD 3 && s.henvcfg.getLsbD 3)) ∧
      (s.priv = .user → s.v = false → s.xSSE = (s.menvcfg.getLsbD 3 && s.senvcfg.getLsbD 3)) ∧
      (s.priv = .user → s.v = true →
        s.xSSE = (s.menvcfg.getLsbD 3 && s.henvcfg.getLsbD 3 && s.senvcfg.getLsbD 3)))

/-- Bit 3 of what a CSR read of each register returns is the gated `SSE` field (10 R22), and without S-mode zero, which
no write to `menvcfg` changes (92 D23). The high halves read bits 63:32 (92 D7). That the other bits read as stored is the
model's choice (log entry 13). -/
def Obligations.CsrReadsShowTheGatedSse : Prop :=
  ∀ s : State,
    (s.cfg.hasS = true →
      (s.readEnv .menvcfg).getLsbD 3 = s.menvcfg.getLsbD 3 ∧
      (s.readEnv .henvcfg).getLsbD 3 = (s.menvcfg.getLsbD 3 && s.henvcfg.getLsbD 3) ∧
      (s.readEnv .senvcfg).getLsbD 3 =
        (if s.v then s.menvcfg.getLsbD 3 && s.henvcfg.getLsbD 3 && s.senvcfg.getLsbD 3
         else s.menvcfg.getLsbD 3 && s.senvcfg.getLsbD 3)) ∧
    (s.cfg.hasS = false →
      (s.readEnv .menvcfg).getLsbD 3 = false ∧ (s.readEnv .henvcfg).getLsbD 3 = false ∧
      (s.readEnv .senvcfg).getLsbD 3 = false ∧
      ∀ w, ((s.writeEnv .menvcfg w).readEnv .menvcfg).getLsbD 3 = false) ∧
    (∀ k, k ≠ 3 → k < xlenBits s.cfg.xlen →
      (s.readEnv .menvcfg).getLsbD k = s.menvcfg.getLsbD k ∧ (s.readEnv .henvcfg).getLsbD k = s.henvcfg.getLsbD k ∧
      (s.readEnv .senvcfg).getLsbD k = s.senvcfg.getLsbD k) ∧
    ∀ k, (s.readEnv .menvcfgh).getLsbD k = s.menvcfg.getLsbD (32 + k) ∧
      (s.readEnv .henvcfgh).getLsbD k = s.henvcfg.getLsbD (32 + k)

/-- A write does not move a gated `SSE` field and writes an ungated one; under the `henvcfg` gate the stored bit survives
(10 R23). That the other bits hold what was written is the model's choice (log entry 13). -/
def Obligations.GatedSseIsReadOnly : Prop :=
  ∀ (s : State) (w : Word),
    (s.menvcfgSse = false →
      (s.writeHenvcfg w).henvcfgSse = false ∧ ∀ v, (s.writeSenvcfg w).senvcfgSse v = false) ∧
    (s.v = true → s.henvcfgSse = false →
      (s.writeSenvcfg w).senvcfgSse true = false ∧ (s.writeSenvcfg w).senvcfg.getLsbD 3 = s.senvcfg.getLsbD 3) ∧
    (s.menvcfgSse = true → (s.writeHenvcfg w).henvcfgSse = w.getLsbD 3) ∧
    (s.v = false → s.menvcfgSse = true → (s.writeSenvcfg w).senvcfgSse false = w.getLsbD 3) ∧
    (s.v = true → s.henvcfgSse = true → (s.writeSenvcfg w).senvcfgSse true = w.getLsbD 3) ∧
    ∀ k, k ≠ 3 → k < xlenBits s.cfg.xlen →
      (s.writeHenvcfg w).henvcfg.getLsbD k = w.getLsbD k ∧ (s.writeSenvcfg w).senvcfg.getLsbD k = w.getLsbD k

/-- Who may access the three registers (45 R153, 92 D7; PRESUMED, log entry 25), what a CSR instruction on one of them
does there and elsewhere, and what writing `menvcfg.SSE` does: set, it activates Zicfiss in S-mode (10 R18), and clear,
all three `SSE` fields read zero (10 R19). On RV32 the low and the high half are written apart (92 D7). That a write keeps the other stored bits is the model's (log entries 12, 13);
where `SSE` is set again the two gated bits are free (92 D15) and nothing is stated of them. -/
def Obligations.EnvironmentWritesByMode : Prop :=
  ∀ s : State,
    (s.envDenied .menvcfg = none ↔ s.priv = .machine) ∧
    (s.envDenied .henvcfg = none ↔
      s.cfg.hasH = true ∧ (s.priv = .machine ∨ s.priv = .supervisor ∧ s.v = false)) ∧
    (s.envDenied .senvcfg = none ↔ s.cfg.hasS = true ∧ s.priv ≠ .user) ∧
    (s.envDenied .menvcfgh = none ↔ s.cfg.xlen = .rv32 ∧ s.envDenied .menvcfg = none) ∧
    (s.envDenied .henvcfgh = none ↔ s.cfg.xlen = .rv32 ∧ s.envDenied .henvcfg = none) ∧
    (s.cfg.hasH = true → s.priv = .supervisor → s.v = true → s.envDenied .henvcfg = some .virtualInstruction) ∧
    (∀ (op : CsrOp) (imm : Bool) (c : EnvCsr) (rd f : RegIdx) (t : State), t = s.execBase (.csrEnv op imm c rd f) →
      (∀ e, s.envDenied c = some e →
        (e = .illegalInstruction ∨ s.v = true ∧ e = .virtualInstruction) ∧
        WordTrap s e (BaseInstr.csrEnv op imm c rd f).word t) ∧
      (s.envDenied c = none →
        (rd ≠ 0 → t.readX rd = s.readEnv c) ∧ SameRegsBut rd s t ∧ t.readSsp = s.readSsp ∧ SameMemory s t ∧
        t.pc = s.pcAfter 4 ∧ SameTables s t ∧ SameTrapState { s with draws := t.draws } t ∧
        (envWritten s op imm c f = none → SameEnv s t ∧ t.draws = s.draws) ∧
        ∀ w, envWritten s op imm c f = some w → SameEnv (s.writeEnv c w) t ∧ t.draws = (s.writeEnv c w).draws)) ∧
    (∀ (w : Word) (u : State), s.cfg.hasS = true → u = s.writeEnv .menvcfg w →
      (∀ k < 64, u.menvcfg.getLsbD k = if k < xlenBits s.cfg.xlen then w.getLsbD k else s.menvcfg.getLsbD k) ∧
      (∀ k, k ≠ 3 → u.henvcfg.getLsbD k = s.henvcfg.getLsbD k ∧ u.senvcfg.getLsbD k = s.senvcfg.getLsbD k) ∧
      (w.getLsbD 3 = true → ({ u with priv := .supervisor, v := false } : State).xSSE = true) ∧
      (w.getLsbD 3 = false → u.menvcfgSse = false ∧ u.henvcfgSse = false ∧ ∀ v, u.senvcfgSse v = false) ∧
      (w.getLsbD 3 = false ∨ s.menvcfg.getLsbD 3 = true → u.henvcfg = s.henvcfg ∧ u.senvcfg = s.senvcfg)) ∧
    WritesItsHalf s

/-- Every write to `ssp` keeps bits `XLEN-1:2` of the value (`XLEN-1:3` where bit 2 is read-only zero), clears the
others, and touches nothing else (10 R13). -/
def Obligations.SspWriteLegalises : Prop :=
  ∀ (s : State) (w : Word) (k : Nat),
    (s.writeSsp w).readSsp.getLsbD k =
      (decide (k < xlenBits s.cfg.xlen) && !(decide (k < 2)) && !(decide (k = 2) && s.cfg.sspBit2RoZero) &&
        w.getLsbD k) ∧
    SameRegs s (s.writeSsp w) ∧ SameMemory s (s.writeSsp w) ∧ (s.writeSsp w).pc = s.pc ∧ SameRest s (s.writeSsp w)

/-- `x0` reads zero and ignores writes; any other register reads back the low `XLEN` bits written to it, and no other
register changes (10 R10). -/
def Obligations.RegisterFileReadsBack : Prop :=
  ∀ (s : State) (r r' : RegIdx) (w : Word),
    s.readX 0 = 0 ∧ (r ≠ 0 → (s.writeX r w).readX r = s.trunc w) ∧
    (r' ≠ r → (s.writeX r w).readX r' = s.readX r') ∧ SameRegs s (s.writeX 0 w) ∧
    (s.writeX r w).readX r' &&& s.trunc (BitVec.allOnes 64) = (s.writeX r w).readX r'

/-! ## Memory and the shadow-stack access check -/

/-- The bytes of a stored doubleword, and what narrower loads see of it, little-endian (20 R42, the spec's decision D2;
log entry 31). -/
def Obligations.LittleEndianViews : Prop :=
  ∀ (m : Memory) (a : Nat) (w : Word),
    (∀ k < 8, Memory.read (Memory.store m a 8 w) (a + k) = w.extractLsb' (8 * k) 8) ∧
    Memory.load (Memory.store m a 8 w) a 8 = w ∧
    Memory.load (Memory.store m a 8 w) a 4 = (w.setWidth 32).setWidth 64 ∧
    Memory.load (Memory.store m a 8 w) (a + 4) 4 = w >>> 32

/-- A shadow-stack access is performed only if every condition of 20 R52 holds, and then at the leaf's address; the
effective mode is the current one, or with `MPRV` in M-mode the previous one (92 D27, log entry 24), whether translation
is off is read from `satp` or, with `V` = 1, `vsatp` (20 R51), and `SUM` from `mstatus` or `vsstatus` (log entry 26). -/
def Obligations.ShadowStackAccessConditions : Prop :=
  ∀ s : State,
    (s.priv ≠ .machine ∨ s.mstatus.mprv = false → s.effMode = (s.priv, s.v)) ∧
    (s.priv = .machine → s.mstatus.mprv = true →
      s.effMode.1 = s.mstatus.mpp ∧
      (s.effMode.2 = true ↔ s.mstatus.mpp ≠ .machine ∧ s.cfg.hasH = true ∧ s.mstatus.mpv = true)) ∧
    (s.isBare false = true ↔ s.satpMode = .bare) ∧ (s.isBare true = true ↔ s.vsatpMode = .bare) ∧
    s.sumBit false = s.mstatus.sum ∧ s.sumBit true = s.vsstatus.sum ∧
    ∀ (op : SsOp) (va : Word) (n : Nat),
      s.ssFaults op va n = [] ↔
        va.toNat % n = 0 ∧ s.effMode.1 ≠ .machine ∧ s.isBare s.effMode.2 = false ∧
        ∃ l, s.translate op.kind va n s.effMode.1 s.effMode.2 = .leaf l ∧ l.page = .shadowStack ∧
          (s.effMode.1 = .user → l.u = true) ∧
          (s.effMode.1 = .supervisor → l.u = true → s.sumBit s.effMode.2 = true) ∧
          (∀ g, l.g = some g → g.r = true ∧ g.w = true) ∧ l.pmp.r = true ∧ l.pmp.w = true ∧ l.idempotent = true ∧
          (op = .amoSwap → l.amoswap = true) ∧ s.ssAddr op va n = l.pa

/-- The first fault of the model's list is the one the pseudocode of 20 R52 raises, and the one reported where faults
are reported in order (60 R166). -/
def Obligations.FaultsFollowThePseudocode : Prop :=
  ∀ (s : State) (op : SsOp) (va : Word) (n : Nat),
    (s.ssFaults op va n).head? = ssFirstFault s op va n ∧
    ∀ e es, s.cfg.faultReport = .firstInOrder → s.ssFaults op va n = e :: es →
      ssFirstFault s op va n = some (s.reported e es)

/-- Whatever is reported, where any applicable fault may be, is one that applies (92 D11); how it is drawn is the model's
choice (log entry 9). -/
def Obligations.ReportedFaultApplies : Prop :=
  ∀ (s : State) (op : SsOp) (va : Word) (n : Nat) (go : Nat → State),
    (s.ssFaults op va n = [] → s.withSsAccess op va n go = go (s.ssAddr op va n)) ∧
    ∀ e es, s.ssFaults op va n = e :: es →
      s.reported e es ∈ s.ssFaults op va n ∧ AddrTrap s (s.reported e es) va (s.withSsAccess op va n go)

/-- Every access, page or guest-page fault of a shadow-stack access is of the store/AMO type, but for one: a fault of an
implicit access of VS-stage translation is typed by that access (20 R62). A misaligned swap has its own choice (R45). -/
def Obligations.ShadowStackFaultsAreStoreTyped : Prop :=
  (Exc.code .storeAccessFault = 7 ∧ Exc.code .storePageFault = 15 ∧ Exc.code .storeGuestPageFault = 23) ∧
  ∀ (s : State) (op : SsOp) (va : Word) (n : Nat),
    (∀ e ∈ s.ssFaults op va n,
      e = .storeAccessFault ∨ e = .storePageFault ∨ e = .storeGuestPageFault ∨
      (e = .storeMisaligned ∧ op = .amoSwap ∧ va.toNat % n ≠ 0 ∧ s.cfg.amoMisaligned = .addressMisaligned) ∨
      (e = .loadGuestPageFault ∧ s.translate op.kind va n s.effMode.1 s.effMode.2 = .fault .implicitGuestRead)) ∧
    (va.toNat % n = 0 → s.effMode.1 ≠ .machine → s.isBare s.effMode.2 = false →
      (s.translate op.kind va n s.effMode.1 s.effMode.2 = .fault .implicitGuestRead →
        s.ssFaults op va n = [.loadGuestPageFault]) ∧
      (s.translate op.kind va n s.effMode.1 s.effMode.2 = .fault .implicitGuestWrite →
        s.ssFaults op va n = [.storeGuestPageFault]))

/-- What a shadow-stack access gets from each leaf type, every other condition being met (20 R53). For the reserved
`110b` both faults apply, the order being the model's choice (92 D18, log entry 9). -/
def Obligations.LeafTypeDecidesTheFault : Prop :=
  ∀ (s : State) (op : SsOp) (va : Word) (n : Nat) (l : Leaf),
    va.toNat % n = 0 → s.effMode.1 ≠ .machine → s.isBare s.effMode.2 = false →
    s.translate op.kind va n s.effMode.1 s.effMode.2 = .leaf l → s.userBitOk s.effMode.1 s.effMode.2 l.u = true →
    (∀ g, l.g = some g → g.r = true ∧ g.w = true) → l.pmp.r = true → l.pmp.w = true → l.idempotent = true →
    l.amoswap = true →
    (l.page = .shadowStack → s.ssFaults op va n = []) ∧
    (l.page = .readOnly → s.ssFaults op va n = [.storePageFault]) ∧
    (l.page = .readWrite ∨ l.page = .executeOnly ∨ l.page = .readExecute ∨ l.page = .readWriteExecute →
      s.ssFaults op va n = [.storeAccessFault]) ∧
    (l.page = .writeExecute → s.ssFaults op va n = [.storePageFault, .storeAccessFault])

/-- The SS encoding is defined in a table exactly where the enables of 20 R49 are set; elsewhere a walk that meets it
ends in a page fault. Otherwise a walk answers what the first mapping of the table that holds the address for this kind
of access says: its fault, or its leaf with the G-stage permissions where `V` = 1 and `hgatp` is not `Bare` (R55; log
entry 27), and the PMP's and PMA's answer for the `n` bytes (R50, R56, R57; the tables are log entry 8). An ordinary load,
store or fetch that a walk or the G-stage refuses raises the fault of its own type at the byte refused (93 U1, U2; the rest
of its check is the base's, PRESUMED, log entry 20). -/
def Obligations.ShadowStackEncodingIsGated : Prop :=
  (∀ (ms : List Mapping) (st : Stage) (kind : AccessKind) (a : Nat),
    findMapping ms st kind a =
      ms.find? (fun m => decide (m.stage = st ∧ kind ∈ m.kinds ∧ m.base ≤ a ∧ a < m.base + m.size))) ∧
  (∀ (s : State) (kind : AccessKind) (p : Priv) (v : Bool) (va : Word), p ≠ .machine →
    OrdinaryByteFaults s kind p v va) ∧
  (∀ (s : State) (kind : AccessKind) (va : Word) (k : Nat) (pa : Nat → Nat) (e : Exc),
    (∀ j < k, s.ordinaryByte kind (accessMode s kind).1 (accessMode s kind).2 (s.byteAddr va j) = .ok (pa j)) →
    s.ordinaryByte kind (accessMode s kind).1 (accessMode s kind).2 (s.byteAddr va k) = .error e →
    OrdinaryAccessStops s kind va k pa e) ∧
  ∀ (s : State) (kind : AccessKind) (va : Word) (n : Nat) (p : Priv) (v : Bool),
    (findMapping s.mappings (if v then .vs else .single) kind va.toNat = none →
      s.translate kind va n p v = .fault .page) ∧
    ∀ m, findMapping s.mappings (if v then .vs else .single) kind va.toNat = some m →
      (∀ f, m.entry = .fault f → s.translate kind va n p v = .fault f) ∧
      ∀ (page : PageType) (u : Bool) (g : Perm) (base pa : Nat), m.entry = .leaf page u g base →
        pa = base + (va.toNat - m.base) →
        (page = .shadowStack → ssEnables s v = false → s.translate kind va n p v = .fault .page) ∧
        (page ≠ .shadowStack ∨ ssEnables s v = true →
          s.translate kind va n p v = .leaf
            { page := page, u := u, g := if v = true ∧ s.hgatpMode = .paged then some g else none, pa := pa,
              pmp := pmpOver s.pmp p pa n, idempotent := (pmaOver s.pma pa n).1,
              amoswap := (pmaOver s.pma pa n).2 })

/-- PMP and PMA permit an access exactly when they permit every byte of it (20 R56, R57, R47), and answer for a byte as
the first region that holds it says, nothing being granted where none does, the model's choice (log entry 7). -/
def Obligations.PlatformChecksCoverEveryByte : Prop :=
  ∀ (pmp : List PmpRegion) (pma : List PmaRegion) (p : Priv) (pa n : Nat),
    ((pmpOver pmp p pa n).r = true ↔ ∀ k < n, (pmpAt pmp p (pa + k)).r = true) ∧
    ((pmpOver pmp p pa n).w = true ↔ ∀ k < n, (pmpAt pmp p (pa + k)).w = true) ∧
    ((pmaOver pma pa n).1 = true ↔ ∀ k < n, (pmaAt pma (pa + k)).1 = true) ∧
    ((pmaOver pma pa n).2 = true ↔ ∀ k < n, (pmaAt pma (pa + k)).2 = true) ∧
    pmpAt pmp p pa =
      (match pmp.find? (fun r => decide (r.base ≤ pa ∧ pa < r.base + r.size)) with
       | some r => if p = .machine then r.machine else r.lower
       | none => ⟨false, false, false⟩) ∧
    pmaAt pma pa =
      (match pma.find? (fun r => decide (r.base ≤ pa ∧ pa < r.base + r.size)) with
       | some r => (r.idempotent, r.amoswap)
       | none => (false, false))

/-- The bytes of SS pages are readable by an ordinary load, whatever `MXR` holds (20 R58, R54): where every byte lies in
one, and `U`, `SUM`, the G-stage and the PMP permit reading, the load answers the bytes at the leaves' addresses, lowest
first; the rest of the load's check is the base's, PRESUMED (log entry 20), and no PMA is asked, the model's choice (log
entry 37). -/
def Obligations.LoadsReadShadowStackPages : Prop :=
  ∀ (s : State) (va : Word) (n : Nat) (l : Nat → Leaf), s.effMode.1 ≠ .machine → s.isBare s.effMode.2 = false →
    (∀ k < n, s.translate .load (s.byteAddr va k) 1 s.effMode.1 s.effMode.2 = .leaf (l k) ∧
      (l k).page = .shadowStack ∧ s.userBitOk s.effMode.1 s.effMode.2 (l k).u = true ∧
      (∀ g, (l k).g = some g → g.r = true) ∧ (l k).pmp.r = true) →
    ∃ w, s.memRead va n = .ok w ∧
      ∀ k < 8, w.extractLsb' (8 * k) 8 = if k < n then Memory.read s.mem (l k).pa else 0

/-- An ordinary store that meets an SS page at its `k`-th byte, the bytes before it permitted, raises a store/AMO access
fault at that byte's address and writes nothing (20 R59, 90 C1). That it does so before `U`, `SUM`, the G-stage and the
PMP are asked is the base's order, PRESUMED (log entry 20). -/
def Obligations.OrdinaryStoresToShadowStackFault : Prop :=
  ∀ (s : State) (va : Word) (n k : Nat) (w : Word) (l : Leaf), k < n → s.effMode.1 ≠ .machine →
    s.isBare s.effMode.2 = false →
    (∀ j < k, ∃ a, s.ordinaryByte .store s.effMode.1 s.effMode.2 (s.byteAddr va j) = .ok a) →
    s.translate .store (s.byteAddr va k) 1 s.effMode.1 s.effMode.2 = .leaf l → l.page = .shadowStack →
    s.memWrite va n w = .error (.storeAccessFault, s.byteAddr va k)

/-! ## Push and pop -/

/-- `SSPUSH x1`, `SSPUSH x5` and `C.SSPUSH x1` push (40 R100). -/
def Obligations.PushStoresAndMovesSsp : Prop :=
  PushCompletes .sspushX1 1 4 ∧ PushCompletes .sspushX5 5 4 ∧ PushCompletes .cSspushX1 1 2

/-- A push whose store faults leaves `ssp`, memory and every register as they were, and the trap records the push's own
address (40 R103). Which fault is reported and the trap value are log entries 9 and 10. -/
def Obligations.FaultingPushWritesNothing : Prop :=
  PushFaults .sspushX1 ∧ PushFaults .sspushX5 ∧ PushFaults .cSspushX1

/-- `SSPOPCHK x1`, `SSPOPCHK x5` and `C.SSPOPCHK x5` pop a matching entry (41 R110). -/
def Obligations.MatchingPopMovesSsp : Prop :=
  PopCompletes .sspopchkX1 1 4 ∧ PopCompletes .sspopchkX5 5 4 ∧ PopCompletes .cSspopchkX5 5 2

/-- A pop that finds another value raises the shadow stack fault and changes nothing (41 R114, R116). The cause codes
are those of 60 R160, and the base's own beside them: 5 and 13 are named there too, 12 and 13 in 93 U1, and 20 is the
family's (log entry 23). -/
def Obligations.MismatchingPopRaisesSoftwareCheck : Prop :=
  PopMismatches .sspopchkX1 1 ∧ PopMismatches .sspopchkX5 5 ∧ PopMismatches .cSspopchkX5 5 ∧
    Exc.code .softwareCheck = 18 ∧ Exc.code .storeAccessFault = 7 ∧ Exc.code .storePageFault = 15 ∧
    Exc.code .storeGuestPageFault = 23 ∧ Exc.code .loadGuestPageFault = 21 ∧ Exc.code .illegalInstruction = 2 ∧
    Exc.code .virtualInstruction = 22 ∧ Exc.code .storeMisaligned = 6 ∧ Exc.code .instrAccessFault = 1 ∧
    Exc.code .instrPageFault = 12 ∧ Exc.code .loadAccessFault = 5 ∧ Exc.code .loadPageFault = 13 ∧
    Exc.code .instrGuestPageFault = 20

/-- A pop whose load faults reports that fault, never a mismatch (41 R115, 60 R166). -/
def Obligations.FaultingPopReportsTheLoad : Prop :=
  PopFaults .sspopchkX1 ∧ PopFaults .sspopchkX5 ∧ PopFaults .cSspopchkX5

/-- With `xSSE` = 0 the pushes and pops change nothing but `pc` (40 R105, 41 R117, 44 R140). -/
def Obligations.InactivePushAndPopOnlyAdvance : Prop :=
  InactiveOnlyAdvances .sspushX1 4 ∧ InactiveOnlyAdvances .sspushX5 4 ∧ InactiveOnlyAdvances .cSspushX1 2 ∧
    InactiveOnlyAdvances .sspopchkX1 4 ∧ InactiveOnlyAdvances .sspopchkX5 4 ∧ InactiveOnlyAdvances .cSspopchkX5 2

/-- A push followed by a pop of the same register reads back the value and restores `ssp` (41 R117, 70 R198). -/
def Obligations.PopAfterPushRestoresSsp : Prop :=
  ∀ (s : State) (i j : Instr), (i, j) ∈ [(Instr.sspushX1, Instr.sspopchkX1), (.cSspushX1, .sspopchkX1),
      (.sspushX5, .sspopchkX5), (.sspushX5, .cSspopchkX5)] →
    s.cfg.Wf → s.xSSE = true → s.ssFaults .push s.pushAddr s.entryBytes = [] →
    s.ssFaults .popChk s.pushAddr s.entryBytes = [] →
    s.ssAddr .popChk s.pushAddr s.entryBytes = s.ssAddr .push s.pushAddr s.entryBytes →
    ∃ t u, exec i s = .next t ∧ exec j t = .next u ∧ u.readSsp = s.readSsp ∧ u.mem = t.mem ∧ SameRegs s u ∧
      SameMemoryOutside (s.ssAddr .push s.pushAddr s.entryBytes) s.entryBytes s u ∧ SameRest s u

/-! ## Reading `ssp` and the May-Be-Operations -/

/-- `SSRDP rd`, the word `0xCDC04073 | rd<<7`, writes `ssp` where `xSSE` = 1 and 0 elsewhere, and raises nothing
(42 R120). -/
def Obligations.SsrdpReadsSspOrZero : Prop :=
  ∀ (s : State) (rd : RegIdx), rd ≠ 0 →
    encodeWord (.ssrdp rd) = 0xCDC04073 ||| fieldAt rd 7 ∧
    ∃ t, exec (.ssrdp rd) s = .next t ∧ t.readX rd = (if s.xSSE then s.readSsp else 0) ∧ SameRegsBut rd s t ∧
      t.readSsp = s.readSsp ∧ SameMemory s t ∧ t.pc = s.pcAfter 4 ∧ SameRest s t

/-- `MOP.RR.7` and `MOP.R.28` write 0 to `rd` and change nothing else, whatever `xSSE` is (44 R135, R136). -/
def Obligations.MopsWriteZero : Prop :=
  ∀ (s : State) (i : Instr) (rd rs1 rs2 : RegIdx), i = .mopRr7 rd rs1 rs2 ∨ i = .mopR28 rd rs1 →
    ∃ t, exec i s = .next t ∧ t.readX rd = 0 ∧ SameRegsBut rd s t ∧ t.readSsp = s.readSsp ∧ SameMemory s t ∧
      t.pc = s.pcAfter 4 ∧ SameRest s t

/-- `C.MOP.1` and `C.MOP.5` change nothing but `pc` (44 R137, R138). -/
def Obligations.CompressedMopsOnlyAdvance : Prop :=
  ∀ s : State, exec .cMop1 s = .next { s with pc := s.pcAfter 2 } ∧ exec .cMop5 s = .next { s with pc := s.pcAfter 2 }

/-! ## The atomic swap -/

/-- Where `SSAMOSWAP` may execute, in terms of the stored bits, and what it raises elsewhere (43 R126), writing nothing
(60 R168); the trap value is 60 R169's, by a parameter (log entry 10). -/
def Obligations.SwapEnabledByMode : Prop :=
  ∀ s : State,
    (s.cfg.hasS = false → s.ssAmoDenied = some .illegalInstruction) ∧
    (s.cfg.hasS = true →
      (s.priv = .machine → s.ssAmoDenied = none) ∧
      (s.priv ≠ .machine → s.menvcfg.getLsbD 3 = false → s.ssAmoDenied = some .illegalInstruction) ∧
      (s.menvcfg.getLsbD 3 = true →
        (s.priv = .supervisor → s.v = false → s.ssAmoDenied = none) ∧
        (s.priv = .user → s.v = false →
          s.ssAmoDenied = if s.senvcfg.getLsbD 3 then none else some .illegalInstruction) ∧
        (s.priv = .supervisor → s.v = true →
          s.ssAmoDenied = if s.henvcfg.getLsbD 3 then none else some .virtualInstruction) ∧
        (s.priv = .user → s.v = true →
          s.ssAmoDenied =
            if s.henvcfg.getLsbD 3 && s.senvcfg.getLsbD 3 then none else some .virtualInstruction))) ∧
    ∀ e, s.ssAmoDenied = some e → ∀ (rd rs2 rs1 : RegIdx) (aq rl : Bool),
      (∃ t, exec (.ssamoswapW rd rs2 rs1 aq rl) s = .next t ∧ InsnTrap s e (.ssamoswapW rd rs2 rs1 aq rl) t) ∧
      (s.cfg.xlen = .rv64 →
        ∃ t, exec (.ssamoswapD rd rs2 rs1 aq rl) s = .next t ∧ InsnTrap s e (.ssamoswapD rd rs2 rs1 aq rl) t)

/-- `SSAMOSWAP.W` swaps a word: the sign-extended old value to `x[rd]`, the low 32 bits of `x[rs2]` to memory, both
operands read before `x[rd]` is written (43 R125, R133). -/
def Obligations.WordSwapCompletes : Prop :=
  ∀ (s : State) (rd rs2 rs1 : RegIdx) (aq rl : Bool),
    SwapCompletes (.ssamoswapW rd rs2 rs1 aq rl) 4
      (fun old => s.trunc ((old.setWidth 32).signExtend 64)) rd rs2 rs1 s

/-- On RV64, `SSAMOSWAP.D` swaps a doubleword (43 R128). -/
def Obligations.DoublewordSwapCompletes : Prop :=
  ∀ (s : State) (rd rs2 rs1 : RegIdx) (aq rl : Bool), s.cfg.xlen = .rv64 →
    SwapCompletes (.ssamoswapD rd rs2 rs1 aq rl) 8 (fun old => old) rd rs2 rs1 s

/-- With `XLEN` = 32 the word of `SSAMOSWAP.D` raises an illegal-instruction exception (30 R90). Where a virtual
machine has it disabled the spec's texts differ on the cause, and the model's choice is log entry 15. -/
def Obligations.DoublewordSwapIsIllegalOnRv32 : Prop :=
  ∀ (s : State) (rd rs2 rs1 : RegIdx) (aq rl : Bool), s.cfg.xlen = .rv32 →
    ∃ t, exec (.ssamoswapD rd rs2 rs1 aq rl) s = .next t ∧
      InsnTrap s .illegalInstruction (.ssamoswapD rd rs2 rs1 aq rl) t

/-- A swap whose access faults raises a fault that applies and writes nothing (43 R132). -/
def Obligations.FaultingSwapWritesNothing : Prop :=
  ∀ (s : State) (rd rs2 rs1 : RegIdx) (aq rl : Bool),
    SwapFaults (.ssamoswapW rd rs2 rs1 aq rl) 4 rs1 s ∧
    (s.cfg.xlen = .rv64 → SwapFaults (.ssamoswapD rd rs2 rs1 aq rl) 8 rs1 s)

/-- In M-mode an aligned swap ends in a store/AMO access fault, unless `MPRV` gives it a lower effective privilege: then
it is checked, and lands, as in the previous mode (43 R129, 92 D27; log entry 24). -/
def Obligations.MachineModeSwapFaults : Prop :=
  ∀ (s : State) (rd rs2 rs1 : RegIdx) (aq rl : Bool), s.cfg.hasS = true → s.priv = .machine →
    (s.mstatus.mprv = false ∨ s.mstatus.mpp = .machine →
      ((s.readX rs1).toNat % 4 = 0 → ∃ t, exec (.ssamoswapW rd rs2 rs1 aq rl) s = .next t ∧
        AddrTrap s .storeAccessFault (s.readX rs1) t) ∧
      (s.cfg.xlen = .rv64 → (s.readX rs1).toNat % 8 = 0 → ∃ t, exec (.ssamoswapD rd rs2 rs1 aq rl) s = .next t ∧
        AddrTrap s .storeAccessFault (s.readX rs1) t)) ∧
    (AccessesAsPrevious s → ∀ (va : Word) (n : Nat) (u : State),
      u = { s with priv := s.mstatus.mpp, v := s.cfg.hasH && s.mstatus.mpv } →
      s.ssFaults .amoSwap va n = u.ssFaults .amoSwap va n ∧ s.ssAddr .amoSwap va n = u.ssAddr .amoSwap va n)

/-! ## CSR access to `ssp` -/

/-- Where CSR 0x011 may be accessed, and what each of the six instructions raises elsewhere, neither reading nor writing
it (45 R146, 60 R168); the trap value is 60 R169's, by a parameter (log entry 10). -/
def Obligations.SspCsrAccessByMode : Prop :=
  ∀ s : State,
    (s.priv = .machine → s.sspCsrDenied = none) ∧
    (s.priv ≠ .machine → s.menvcfgSse = false → s.sspCsrDenied = some .illegalInstruction) ∧
    (s.menvcfgSse = true →
      (s.priv = .supervisor → s.v = false → s.sspCsrDenied = none) ∧
      (s.priv = .user → s.v = false →
        s.sspCsrDenied = if s.senvcfg.getLsbD 3 then none else some .illegalInstruction) ∧
      (s.priv = .supervisor → s.v = true →
        s.sspCsrDenied = if s.henvcfg.getLsbD 3 then none else some .virtualInstruction) ∧
      (s.priv = .user → s.v = true →
        s.sspCsrDenied = if s.henvcfg.getLsbD 3 && s.senvcfg.getLsbD 3 then none else some .virtualInstruction)) ∧
    ∀ e, s.sspCsrDenied = some e → ∀ (rd f : RegIdx) (i : Instr),
      i ∈ [Instr.csrrwSsp rd f, .csrrsSsp rd f, .csrrcSsp rd f, .csrrwiSsp rd f, .csrrsiSsp rd f, .csrrciSsp rd f] →
      ∃ t, exec i s = .next t ∧ InsnTrap s e i t

/-- `CSRRW`, `CSRRS` and `CSRRC` on `ssp` (45 R147 to R149). -/
def Obligations.CsrRegisterFormsComplete : Prop :=
  ∀ rd rs1 : RegIdx,
    CsrCompletes (.csrrwSsp rd rs1) rd (fun s => s.legalSsp (s.readX rs1)) ∧
    CsrCompletes (.csrrsSsp rd rs1) rd
      (fun s => if rs1 = 0 then s.readSsp else s.legalSsp (s.readSsp ||| s.readX rs1)) ∧
    CsrCompletes (.csrrcSsp rd rs1) rd
      (fun s => if rs1 = 0 then s.readSsp else s.legalSsp (s.readSsp &&& ~~~(s.readX rs1)))

/-- `CSRRWI`, `CSRRSI` and `CSRRCI` on `ssp` (45 R150 to R152). -/
def Obligations.CsrImmediateFormsComplete : Prop :=
  ∀ rd uimm : RegIdx,
    CsrCompletes (.csrrwiSsp rd uimm) rd (fun s => s.legalSsp (uimm.setWidth 64)) ∧
    CsrCompletes (.csrrsiSsp rd uimm) rd
      (fun s => if uimm = 0 then s.readSsp else s.legalSsp (s.readSsp ||| uimm.setWidth 64)) ∧
    CsrCompletes (.csrrciSsp rd uimm) rd
      (fun s => if uimm = 0 then s.readSsp else s.legalSsp (s.readSsp &&& ~~~(uimm.setWidth 64)))

/-! ## Traps -/

/-- An exception that is not delegated enters M-mode (60 R170). What `BASE` is and that delegation needs S-mode are
PRESUMED (log entries 21 and 23). -/
def Obligations.UndelegatedTrapEntersMachineMode : Prop :=
  ∀ (s : State) (e : Exc) (tval : Word),
    s.priv = .machine ∨ s.cfg.hasS = false ∨ s.medeleg.getLsbD e.code = false →
    (s.takeTrap e tval).mTrap = ⟨s.pc, BitVec.ofNat 64 e.code, s.trunc tval, s.mTrap.tvec⟩ ∧
    (s.takeTrap e tval).mstatus = { s.mstatus with
      mpp := s.priv, mpv := if s.cfg.hasH then s.v else s.mstatus.mpv, mpie := s.mstatus.mie, mie := false } ∧
    (s.takeTrap e tval).priv = .machine ∧ (s.takeTrap e tval).v = false ∧
    (s.takeTrap e tval).pc = s.tvecBase s.mTrap.tvec ∧ (s.takeTrap e tval).xSSE = false ∧
    NothingWritten s (s.takeTrap e tval)

/-- An exception delegated to S- or HS-mode and no further enters it (60 R170, R173; log entries 21 and 23). -/
def Obligations.DelegatedTrapEntersSupervisorMode : Prop :=
  ∀ (s : State) (e : Exc) (tval : Word), s.priv ≠ .machine → s.cfg.hasS = true → s.medeleg.getLsbD e.code = true →
    s.v = false ∨ s.hedeleg.getLsbD e.code = false ∨ e.neverToVs = true →
    (s.takeTrap e tval).sTrap = ⟨s.pc, BitVec.ofNat 64 e.code, s.trunc tval, s.sTrap.tvec⟩ ∧
    (s.takeTrap e tval).mstatus = { s.mstatus with
      spp := s.priv == .supervisor, spie := s.mstatus.sie, sie := false } ∧
    (s.takeTrap e tval).hstatusSpv = (if s.cfg.hasH then s.v else s.hstatusSpv) ∧
    (s.takeTrap e tval).priv = .supervisor ∧ (s.takeTrap e tval).v = false ∧
    (s.takeTrap e tval).pc = s.tvecBase s.sTrap.tvec ∧ (s.takeTrap e tval).xSSE = s.menvcfgSse ∧
    NothingWritten s (s.takeTrap e tval)

/-- An exception delegated twice with `V` = 1 enters VS-mode, unless it is a guest-page fault or a virtual-instruction
exception (60 R170, R173; log entries 21 and 23). -/
def Obligations.TwiceDelegatedTrapEntersGuest : Prop :=
  ∀ (s : State) (e : Exc) (tval : Word), s.priv ≠ .machine → s.cfg.hasS = true → s.medeleg.getLsbD e.code = true →
    s.v = true → s.hedeleg.getLsbD e.code = true → e.neverToVs = false →
    (s.takeTrap e tval).vsTrap = ⟨s.pc, BitVec.ofNat 64 e.code, s.trunc tval, s.vsTrap.tvec⟩ ∧
    (s.takeTrap e tval).vsstatus = { s.vsstatus with
      spp := s.priv == .supervisor, spie := s.vsstatus.sie, sie := false } ∧
    (s.takeTrap e tval).priv = .supervisor ∧ (s.takeTrap e tval).v = true ∧
    (s.takeTrap e tval).pc = s.tvecBase s.vsTrap.tvec ∧ (s.takeTrap e tval).xSSE = s.henvcfgSse ∧
    NothingWritten s (s.takeTrap e tval)

/-- Only a guest-page fault writes a second trap value, and only in the register of the mode that takes it, which is
never VS (60 R169, R173). The value is free (log entry 14): nothing is stated of it but its width. -/
def Obligations.SecondTrapValueOnlyForGuestFaults : Prop :=
  ∀ (s : State) (e : Exc) (tval : Word),
    (e.isGuestPageFault = false →
      (s.takeTrap e tval).mtval2 = s.mtval2 ∧ (s.takeTrap e tval).htval = s.htval ∧
        (s.takeTrap e tval).draws = s.draws) ∧
    (e.isGuestPageFault = true → s.trapTarget e = .m →
      FitsIn s.cfg.xlen (s.takeTrap e tval).mtval2 ∧ (s.takeTrap e tval).htval = s.htval) ∧
    (e.isGuestPageFault = true → s.trapTarget e = .s →
      FitsIn s.cfg.xlen (s.takeTrap e tval).htval ∧ (s.takeTrap e tval).mtval2 = s.mtval2) ∧
    (e.isGuestPageFault = true → s.trapTarget e ≠ .vs)

/-- `MRET` and `SRET` restore the `pc`, the mode and the interrupt enable saved for their mode, set the previous enable
and reset the previous mode to U, touching no register, `ssp`, memory or `SSE` field (60 R171); after a trap the one of
the mode that took it so undoes the trap's entry (41 R118). Where they may run, what they raise elsewhere, and what
becomes of `MPV`, `SPV` and `V` are PRESUMED (log entries 22 and 35). -/
def Obligations.ReturnUndoesTrapEntry : Prop :=
  (∀ (s t : State), t = s.execBase .mret →
    (s.priv ≠ .machine → WordTrap s .illegalInstruction 0x30200073 t) ∧
    (s.priv = .machine →
      t.pc = s.mTrap.epc ∧ t.priv = s.mstatus.mpp ∧
      (t.v = true ↔ s.mstatus.mpp ≠ .machine ∧ s.cfg.hasH = true ∧ s.mstatus.mpv = true) ∧
      t.mstatus = { s.mstatus with mie := s.mstatus.mpie, mpie := true, mpp := .user, mpv := false } ∧
      NothingWritten s t ∧
      SameTrapState { s with priv := t.priv, v := t.v, mstatus := t.mstatus } t)) ∧
  (∀ (s t : State), t = s.execBase .sret →
    (s.cfg.hasS = false ∨ s.priv = .user ∧ s.v = false → WordTrap s .illegalInstruction 0x10200073 t) ∧
    (s.cfg.hasS = true → s.priv = .user → s.v = true → WordTrap s .virtualInstruction 0x10200073 t) ∧
    (s.cfg.hasS = true → s.priv ≠ .user →
      NothingWritten s t ∧
      (s.v = false →
        t.pc = s.sTrap.epc ∧ t.priv = (if s.mstatus.spp then .supervisor else .user) ∧
        t.v = (s.cfg.hasH && s.hstatusSpv) ∧ t.hstatusSpv = false ∧
        t.mstatus = { s.mstatus with sie := s.mstatus.spie, spie := true, spp := false } ∧
        SameTrapState { s with priv := t.priv, v := t.v, mstatus := t.mstatus, hstatusSpv := false } t) ∧
      (s.v = true →
        t.pc = s.vsTrap.epc ∧ t.priv = (if s.vsstatus.spp then .supervisor else .user) ∧ t.v = true ∧
        t.vsstatus = { s.vsstatus with sie := s.vsstatus.spie, spie := true, spp := false } ∧
        SameTrapState { s with priv := t.priv, vsstatus := t.vsstatus } t))) ∧
  ∀ (s : State) (e : Exc) (tval : Word) (t u : State), s.Legal → t = s.takeTrap e tval →
    u = t.execBase (if s.trapTarget e = .m then .mret else .sret) →
    u.pc = s.pc ∧ u.priv = s.priv ∧ u.v = s.v ∧ u.mstatus.mie = s.mstatus.mie ∧ u.mstatus.sie = s.mstatus.sie ∧
      u.vsstatus.sie = s.vsstatus.sie ∧ u.xSSE = s.xSSE ∧ NothingWritten s u

/-! ## The whole machine -/

/-- Every step keeps a legal state legal. -/
def Obligations.StepKeepsLegal : Prop := ∀ s t : State, s.Legal → step s = .next t → t.Legal

/-- The state after reset is legal, for every legal choice of parameters. The values the spec does not give are the
model's (log entries 1 to 7). -/
def Obligations.ResetIsLegal : Prop :=
  State.reset.Legal ∧ ∀ p : Params, p.Wf → (State.resetWith p).Legal

/-- After reset the hart is in M-mode at its reset vector with interrupts disabled, `xSSE` and the read-only-zero bits
of `ssp` zero (70 R190, R191). -/
def Obligations.ResetStartsInMachineMode : Prop :=
  ∀ p : Params, (State.resetWith p).priv = .machine ∧ (State.resetWith p).v = false ∧
    (State.resetWith p).mstatus.mie = false ∧ (State.resetWith p).pc = p.resetVector ∧
    (State.resetWith p).xSSE = false ∧ (State.resetWith p).readSsp.getLsbD 0 = false ∧
    (State.resetWith p).readSsp.getLsbD 1 = false ∧
    (p.sspBit2RoZero = true → (State.resetWith p).readSsp.getLsbD 2 = false)

/-- No step changes a parameter, delegation, translation, PMP, PMA or a trap vector, and none changes an environment
register but a CSR instruction on one of them, where it may run (45 R153): `menvcfg` only in M-mode, `henvcfg` only in M
and HS, and none from a user mode. Of the Zicfiss instructions 10 R26 and R27 say the former; of the others it is the
model's: that no store, a base store among them, changes a mapping is log entry 8, UNSAFE, since hardware walks tables in
memory, and that no CSR instruction on `satp`, `medeleg` or a trap vector answers a next state is log entry 18. -/
def Obligations.OnlyCsrWritesChangeTheEnvironment : Prop :=
  ∀ s t : State, step s = .next t →
    SameTables s t ∧
    (SameEnv s t ∨ ∃ bytes op imm c rd f, s.fetch = .ok bytes ∧
      decodeBase s.cfg.xlen bytes = some (.csrEnv op imm c rd f) ∧ s.envDenied c = none) ∧
    (t.menvcfg ≠ s.menvcfg → s.priv = .machine) ∧
    (t.henvcfg ≠ s.henvcfg → s.priv = .machine ∨ s.priv = .supervisor ∧ s.v = false) ∧
    (t.senvcfg ≠ s.senvcfg → s.priv ≠ .user)

/-- Of the opcode table only a push and a swap write memory (20 section 1, table of accesses), and of the steps only one
that runs a push, a swap or a base store, `sd` or `c.sdsp` (95 section 5; log entry 35). -/
def Obligations.OnlyPushSwapAndBaseStoreWriteMemory : Prop :=
  (∀ (i : Instr) (s t : State), exec i s = .next t →
    (∀ rd rs2 rs1 aq rl, i ≠ .ssamoswapW rd rs2 rs1 aq rl ∧ i ≠ .ssamoswapD rd rs2 rs1 aq rl) →
    i ≠ .sspushX1 → i ≠ .sspushX5 → i ≠ .cSspushX1 → SameMemory s t) ∧
  ∀ s t : State, step s = .next t →
    SameMemory s t ∨ ∃ bytes, s.fetch = .ok bytes ∧
      ((∃ i rest, decode s.xSSE bytes = .ok i rest ∧ WritesMemory i) ∨ IsBaseStore s bytes)

/-- Below M-mode, `SSAMOSWAP` may execute, and `ssp` may be accessed by a CSR instruction, exactly where `xSSE` = 1
(43 R126, 45 R146). -/
def Obligations.EnabledExactlyWhereActive : Prop :=
  ∀ s : State, s.priv ≠ .machine →
    (s.ssAmoDenied = none ↔ s.xSSE = true) ∧ (s.sspCsrDenied = none ↔ s.xSSE = true)

/-- Where Zicfiss is inactive below M-mode, no instruction of the opcode table changes `ssp` or a byte of memory, no step
changes `ssp`, and a step changes memory only by a base store, `sd` or `c.sdsp` (log entry 35). -/
def Obligations.InactiveModesLeaveShadowStackAlone : Prop :=
  ∀ s t : State, s.priv ≠ .machine → s.xSSE = false →
    (∀ i : Instr, exec i s = .next t → t.ssp = s.ssp ∧ SameMemory s t) ∧
    (step s = .next t →
      t.ssp = s.ssp ∧ (SameMemory s t ∨ ∃ bytes, s.fetch = .ok bytes ∧ IsBaseStore s bytes))

/-- Where Zicfiss is inactive below M-mode, no instruction of the opcode table and no step, a base instruction's among
them, reveals `ssp`: two runs that differ in it alone differ in it alone afterwards. -/
def Obligations.InactiveModesCannotReadSsp : Prop :=
  ∀ (s t : State) (w : Word), s.priv ≠ .machine → s.xSSE = false →
    (∀ i : Instr, exec i s = .next t → exec i { s with ssp := w } = .next { t with ssp := w }) ∧
    (step s = .next t → step { s with ssp := w } = .next { t with ssp := w })

/-- A May-Be-Operation encoding either completes, `pc` advancing by its length, or raises an exception that is neither
illegal- nor virtual-instruction, with nothing written (60 R163, R168). -/
def Obligations.MopEncodingsAreNeverIllegal : Prop :=
  ∀ (i : Instr) (s t : State), exec i s = .next t →
    i ∈ [Instr.sspushX1, .sspushX5, .cSspushX1, .sspopchkX1, .sspopchkX5, .cSspopchkX5, .cMop1, .cMop5] ∨
      (∃ rd, i = .ssrdp rd) ∨ (∃ rd rs1 rs2, i = .mopRr7 rd rs1 rs2) ∨ (∃ rd rs1, i = .mopR28 rd rs1) →
    (t.pc = s.pcAfter (ilen i) ∧ SameTrapState s t) ∨
    ∃ e tval, e ≠ .illegalInstruction ∧ e ≠ .virtualInstruction ∧ NothingWritten s t ∧ TrapTaken s e tval t

/-- `exec` answers a next state for every instruction of the opcode table in every state. -/
def Obligations.ExecNeverStops : Prop := ∀ (i : Instr) (s : State), ∃ t, exec i s = .next t

/-! ## The base instructions a step runs -/

/-- The words of the base instructions decode to them alone: the decoder of the opcode table refuses each, and the base
decoder gives it back where it exists and accepts nothing else. The words are those of 95 section 5, 45 R153 and, for the
trap returns and the places of a branch's bits, PRESUMED (log entry 35). -/
def Obligations.BaseDecodeInvertsEncode : Prop :=
  (∀ (xlen : Xlen) (b : BaseInstr), b.existsOn xlen = true →
    decodeBase xlen (encodeBase b) = some b ∧ ∀ active, ∃ why, decode active (encodeBase b) = .reject why) ∧
  ∀ (xlen : Xlen) (bytes : List Byte) (b : BaseInstr), decodeBase xlen bytes = some b →
    encodeBase b = bytes ∧ b.existsOn xlen = true

/-- What the base instructions of the spec's programs do (95 section 5, marked there as general knowledge; log entry
35). Their loads and stores are the ordinary accesses of 20 R58 and R59, fault and all (log entries 20 and 37). -/
def Obligations.BaseInstructionsHaveTheirListedEffect : Prop :=
  ∀ s : State,
    (∀ rd rs1 imm, OnlyWrites s rd (s.trunc (s.readX rs1 + BitVec.signExtend 64 imm)) 4
      (s.execBase (.addi rd rs1 imm))) ∧
    (∀ rd imm, OnlyWrites s rd (s.trunc (s.readX rd + BitVec.signExtend 64 imm)) 2 (s.execBase (.cAddi rd imm))) ∧
    (∀ rd rs1 imm, BaseLoads s (.lw rd rs1 imm) rd (s.trunc (s.readX rs1 + BitVec.signExtend 64 imm)) 4
      (fun w => (w.setWidth 32).signExtend 64) 4) ∧
    (∀ rd rs1 imm, BaseLoads s (.ld rd rs1 imm) rd (s.trunc (s.readX rs1 + BitVec.signExtend 64 imm)) 8
      (fun w => w) 4) ∧
    (∀ rd off, BaseLoads s (.cLdsp rd off) rd (s.trunc (s.readX 2 + BitVec.setWidth 64 off * 8)) 8 (fun w => w) 2) ∧
    (∀ rs2 rs1 imm, BaseStores s (.sd rs2 rs1 imm) (s.trunc (s.readX rs1 + BitVec.signExtend 64 imm))
      (s.readX rs2) 4) ∧
    (∀ rs2 off, BaseStores s (.cSdsp rs2 off) (s.trunc (s.readX 2 + BitVec.setWidth 64 off * 8)) (s.readX rs2) 2) ∧
    (∀ rs1 rs2 off, OnlyJumps s
      (if s.readX rs1 = s.readX rs2 then s.trunc (s.pc + BitVec.signExtend 64 off * 2) else s.pcAfter 4)
      (s.execBase (.beq rs1 rs2 off))) ∧
    OnlyJumps s (s.readX 1 &&& ~~~1#64) (s.execBase .ret) ∧
    (∀ rs1, OnlyJumps s (s.readX rs1 &&& ~~~1#64) (s.execBase (.cJr rs1))) ∧
    WordTrap s .illegalInstruction 0xC0001073 (s.execBase .unimp)
end

