-- ==== Sys2Proof/Laws/Memory.lean ====
section
/-! SUPPORT. Memory: reads after writes, and the canonical form. -/

namespace Sys2Proof.Machine

theorem Memory.read_cons (k : Nat) (b : Byte) (m : Memory) (a : Nat) :
    Memory.read ((k, b) :: m) a = if k = a then b else Memory.read m a := rfl

theorem Memory.read_filter_same (m : Memory) (a : Nat) :
    Memory.read (m.filter (fun c => c.1 != a)) a = Memory.unlisted := by
  induction m with
  | nil => rfl
  | cons c m ih =>
    obtain ⟨k, b⟩ := c
    by_cases h : k = a
    · simpa [h] using ih
    · simp [h, Memory.read_cons, ih]

theorem Memory.read_filter_other (m : Memory) (a a' : Nat) (h : a' ≠ a) :
    Memory.read (m.filter (fun c => c.1 != a)) a' = Memory.read m a' := by
  induction m with
  | nil => rfl
  | cons c m ih =>
    obtain ⟨k, b⟩ := c
    by_cases hk : k = a
    · subst hk
      simp [Memory.read_cons, ih, Ne.symm h]
    · simp [hk, Memory.read_cons, ih]

theorem Memory.read_insert_same (m : Memory) (a : Nat) (b : Byte) (h : ∀ c ∈ m, c.1 ≠ a) :
    Memory.read (Memory.insert m a b) a = b := by
  induction m with
  | nil => simp [Memory.insert, Memory.read]
  | cons c m ih =>
    obtain ⟨k, c⟩ := c
    have hk : k ≠ a := h (k, c) (by simp)
    simp only [Memory.insert]
    split
    · simp [Memory.read_cons]
    · simpa [Memory.read_cons, hk] using ih fun c hc => h c (by simp [hc])

theorem Memory.read_insert_other (m : Memory) (a a' : Nat) (b : Byte) (h : a' ≠ a) :
    Memory.read (Memory.insert m a b) a' = Memory.read m a' := by
  induction m with
  | nil => simp [Memory.insert, Memory.read, Ne.symm h]
  | cons c m ih =>
    obtain ⟨k, c⟩ := c
    simp only [Memory.insert]
    split
    · simp [Memory.read_cons, Ne.symm h]
    · simp [Memory.read_cons, ih]

/-- A read after a write to the same address gives the value written. -/
@[simp] theorem Memory.read_write_same (m : Memory) (a : Nat) (b : Byte) : Memory.read (Memory.write m a b) a = b := by
  unfold Memory.write
  dsimp only
  split
  · rename_i h; rw [h, Memory.read_filter_same]
  · exact Memory.read_insert_same _ _ _ (by simp)

/-- A write leaves every other address alone. -/
theorem Memory.read_write_other (m : Memory) (a a' : Nat) (b : Byte) (h : a' ≠ a) :
    Memory.read (Memory.write m a b) a' = Memory.read m a' := by
  unfold Memory.write
  dsimp only
  split
  · exact Memory.read_filter_other _ _ _ h
  · rw [Memory.read_insert_other _ _ _ _ h, Memory.read_filter_other _ _ _ h]

/-- A store of `n` bytes leaves every byte outside them alone. -/
theorem Memory.read_store_outside (n : Nat) : ∀ (m : Memory) (a : Nat) (v : Word) (a' : Nat), a' < a ∨ a + n ≤ a' →
    Memory.read (Memory.store m a n v) a' = Memory.read m a' := by
  induction n with
  | zero => intros; rfl
  | succ n ih =>
    intro m a v a' h
    rw [Memory.store, ih _ _ _ _ (by omega), Memory.read_write_other _ _ _ _ (by omega)]

/-- The bytes of a store are the bytes of its value, the least significant first (20 R42). -/
theorem Memory.read_store_inside (n : Nat) : ∀ (m : Memory) (a : Nat) (v : Word) (k : Nat), k < n →
    Memory.read (Memory.store m a n v) (a + k) = v.extractLsb' (8 * k) 8 := by
  induction n with
  | zero => intro m a v k h; omega
  | succ n ih =>
    intro m a v k h
    rw [Memory.store]
    cases k with
    | zero =>
      rw [Memory.read_store_outside _ _ _ _ _ (by omega), Nat.add_zero, Memory.read_write_same]
      apply BitVec.eq_of_getLsbD_eq
      intro i hi
      simp
    | succ k =>
      rw [show a + (k + 1) = a + 1 + k by omega, ih _ _ _ _ (by omega)]
      apply BitVec.eq_of_getLsbD_eq
      intro i hi
      simp [hi]
      congr 1; omega

/-- What a load sees depends only on the bytes it reads. -/
theorem Memory.load_congr (n : Nat) : ∀ (m m' : Memory) (a : Nat),
    (∀ k < n, Memory.read m (a + k) = Memory.read m' (a + k)) → Memory.load m a n = Memory.load m' a n := by
  induction n with
  | zero => intros; rfl
  | succ n ih =>
    intro m m' a h
    rw [Memory.load, Memory.load, ih m m' (a + 1) fun k hk => by
      rw [show a + 1 + k = a + (k + 1) by omega]; exact h _ (by omega)]
    rw [show Memory.read m a = Memory.read m' a from h 0 (by omega)]

/-- Bit `i` of a loaded value is bit `i % 8` of byte `i / 8`. -/
theorem Memory.load_getLsbD (n : Nat) : ∀ (m : Memory) (a i : Nat), i < 64 →
    (Memory.load m a n).getLsbD i = (decide (i < 8 * n) && (Memory.read m (a + i / 8)).getLsbD (i % 8)) := by
  induction n with
  | zero => intro m a i h; simp [Memory.load]
  | succ n ih =>
    intro m a i h
    rw [Memory.load]
    by_cases h8 : i < 8
    · simp [h8, h, Nat.div_eq_of_lt h8, Nat.mod_eq_of_lt h8]; omega
    · have hz : (Memory.read m a).getLsbD i = false := BitVec.getLsbD_of_ge _ _ (by omega)
      simp only [BitVec.getLsbD_or, BitVec.getLsbD_shiftLeft, BitVec.getLsbD_setWidth, h, h8, hz, ih m (a + 1) (i - 8) (by omega)]
      have h1 : a + 1 + (i - 8) / 8 = a + i / 8 := by omega
      have h2 : (i - 8) % 8 = i % 8 := by omega
      have h3 : (i - 8 < 8 * n) = (i < 8 * (n + 1)) := by simp; omega
      simp [h1, h2, h3]

/-! ## The canonical form -/

/-- The canonical form as list facts: sorted, and no unlisted value listed. -/
theorem Memory.wf_iff (m : Memory) :
    Memory.wf m = true ↔ m.Pairwise (fun c d => c.1 < d.1) ∧ ∀ c ∈ m, c.2 ≠ Memory.unlisted := by
  induction m with
  | nil => simp [Memory.wf]
  | cons c m ih =>
    obtain ⟨k, b⟩ := c
    simp only [Memory.wf, Bool.and_eq_true, bne_iff_ne, ne_eq, List.all_eq_true, decide_eq_true_eq, ih,
      List.pairwise_cons, List.mem_cons, forall_eq_or_imp]
    tauto

theorem Memory.mem_insert (m : Memory) (a : Nat) (b : Byte) (c : Host.Cell) :
    c ∈ Memory.insert m a b ↔ c = (a, b) ∨ c ∈ m := by
  induction m with
  | nil => simp [Memory.insert]
  | cons d m ih =>
    obtain ⟨k, d⟩ := d
    simp only [Memory.insert]
    split
    · simp
    · simp only [List.mem_cons, ih]; tauto

theorem Memory.insert_sorted (m : Memory) (a : Nat) (b : Byte) (h : m.Pairwise (fun c d => c.1 < d.1))
    (ha : ∀ c ∈ m, c.1 ≠ a) : (Memory.insert m a b).Pairwise (fun c d => c.1 < d.1) := by
  induction m with
  | nil => simp [Memory.insert]
  | cons c m ih =>
    obtain ⟨k, c⟩ := c
    rw [List.pairwise_cons] at h
    simp only [Memory.insert]
    split
    · rename_i hlt
      simp only [List.pairwise_cons, List.mem_cons, forall_eq_or_imp]
      exact ⟨⟨hlt, fun e he => Nat.lt_trans hlt (h.1 e he)⟩, h.1, h.2⟩
    · rename_i hge
      have hk : k ≠ a := ha (k, c) (by simp)
      rw [List.pairwise_cons]
      refine ⟨fun e he => ?_, ih h.2 fun e he => ha e (by simp [he])⟩
      rcases (Memory.mem_insert m a b e).1 he with rfl | he
      · show k < a; omega
      · exact h.1 e he

/-- A write keeps the canonical form. -/
theorem Memory.write_wf (m : Memory) (a : Nat) (b : Byte) (h : Memory.wf m = true) :
    Memory.wf (Memory.write m a b) = true := by
  rw [Memory.wf_iff] at h ⊢
  have hf : (m.filter (fun c => c.1 != a)).Pairwise (fun c d => c.1 < d.1) := h.1.filter _
  unfold Memory.write
  dsimp only
  split
  · exact ⟨hf, fun c hc => h.2 c (List.mem_filter.1 hc).1⟩
  · rename_i hb
    refine ⟨Memory.insert_sorted _ _ _ hf (by simp), fun c hc => ?_⟩
    rcases (Memory.mem_insert _ _ _ _).1 hc with rfl | hc
    · exact hb
    · exact h.2 c (List.mem_filter.1 hc).1

/-- A store keeps the canonical form. -/
theorem Memory.store_wf (n : Nat) : ∀ (m : Memory) (a : Nat) (v : Word), Memory.wf m = true →
    Memory.wf (Memory.store m a n v) = true := by
  induction n with
  | zero => intro m a v h; exact h
  | succ n ih => intro m a v h; exact ih _ _ _ (Memory.write_wf m a _ h)

/-- Memory after reset is in canonical form. -/
theorem State.resetWith_mem_wf (p : Config.Params) : Memory.wf (State.resetWith p).mem = true := rfl

end Sys2Proof.Machine
end

