-- ==== Sys2Proof/Laws/State.lean ====
section
/-! SUPPORT. What each update of State leaves of every field, so that no proof unfolds a record update. -/

namespace Sys2Proof.Machine

/-! ## writeX -/

section
variable (s : State) (r : RegIdx) (w : Word)

@[simp] theorem State.writeX_cfg : (s.writeX r w).cfg = s.cfg := rfl
@[simp] theorem State.writeX_pc : (s.writeX r w).pc = s.pc := rfl
@[simp] theorem State.writeX_ssp : (s.writeX r w).ssp = s.ssp := rfl
@[simp] theorem State.writeX_priv : (s.writeX r w).priv = s.priv := rfl
@[simp] theorem State.writeX_v : (s.writeX r w).v = s.v := rfl
@[simp] theorem State.writeX_menvcfg : (s.writeX r w).menvcfg = s.menvcfg := rfl
@[simp] theorem State.writeX_senvcfg : (s.writeX r w).senvcfg = s.senvcfg := rfl
@[simp] theorem State.writeX_henvcfg : (s.writeX r w).henvcfg = s.henvcfg := rfl
@[simp] theorem State.writeX_mstatus : (s.writeX r w).mstatus = s.mstatus := rfl
@[simp] theorem State.writeX_hstatusSpv : (s.writeX r w).hstatusSpv = s.hstatusSpv := rfl
@[simp] theorem State.writeX_vsstatus : (s.writeX r w).vsstatus = s.vsstatus := rfl
@[simp] theorem State.writeX_mTrap : (s.writeX r w).mTrap = s.mTrap := rfl
@[simp] theorem State.writeX_sTrap : (s.writeX r w).sTrap = s.sTrap := rfl
@[simp] theorem State.writeX_vsTrap : (s.writeX r w).vsTrap = s.vsTrap := rfl
@[simp] theorem State.writeX_mtval2 : (s.writeX r w).mtval2 = s.mtval2 := rfl
@[simp] theorem State.writeX_htval : (s.writeX r w).htval = s.htval := rfl
@[simp] theorem State.writeX_medeleg : (s.writeX r w).medeleg = s.medeleg := rfl
@[simp] theorem State.writeX_hedeleg : (s.writeX r w).hedeleg = s.hedeleg := rfl
@[simp] theorem State.writeX_satpMode : (s.writeX r w).satpMode = s.satpMode := rfl
@[simp] theorem State.writeX_vsatpMode : (s.writeX r w).vsatpMode = s.vsatpMode := rfl
@[simp] theorem State.writeX_hgatpMode : (s.writeX r w).hgatpMode = s.hgatpMode := rfl
@[simp] theorem State.writeX_mappings : (s.writeX r w).mappings = s.mappings := rfl
@[simp] theorem State.writeX_pmp : (s.writeX r w).pmp = s.pmp := rfl
@[simp] theorem State.writeX_pma : (s.writeX r w).pma = s.pma := rfl
@[simp] theorem State.writeX_mem : (s.writeX r w).mem = s.mem := rfl
@[simp] theorem State.writeX_draws : (s.writeX r w).draws = s.draws := rfl

end

/-! ## writeSsp -/

section
variable (s : State) (w : Word)

@[simp] theorem State.writeSsp_cfg : (s.writeSsp w).cfg = s.cfg := rfl
@[simp] theorem State.writeSsp_x : (s.writeSsp w).x = s.x := rfl
@[simp] theorem State.writeSsp_pc : (s.writeSsp w).pc = s.pc := rfl
@[simp] theorem State.writeSsp_ssp : (s.writeSsp w).ssp = s.legalSsp w := rfl
@[simp] theorem State.writeSsp_priv : (s.writeSsp w).priv = s.priv := rfl
@[simp] theorem State.writeSsp_v : (s.writeSsp w).v = s.v := rfl
@[simp] theorem State.writeSsp_menvcfg : (s.writeSsp w).menvcfg = s.menvcfg := rfl
@[simp] theorem State.writeSsp_senvcfg : (s.writeSsp w).senvcfg = s.senvcfg := rfl
@[simp] theorem State.writeSsp_henvcfg : (s.writeSsp w).henvcfg = s.henvcfg := rfl
@[simp] theorem State.writeSsp_mstatus : (s.writeSsp w).mstatus = s.mstatus := rfl
@[simp] theorem State.writeSsp_hstatusSpv : (s.writeSsp w).hstatusSpv = s.hstatusSpv := rfl
@[simp] theorem State.writeSsp_vsstatus : (s.writeSsp w).vsstatus = s.vsstatus := rfl
@[simp] theorem State.writeSsp_mTrap : (s.writeSsp w).mTrap = s.mTrap := rfl
@[simp] theorem State.writeSsp_sTrap : (s.writeSsp w).sTrap = s.sTrap := rfl
@[simp] theorem State.writeSsp_vsTrap : (s.writeSsp w).vsTrap = s.vsTrap := rfl
@[simp] theorem State.writeSsp_mtval2 : (s.writeSsp w).mtval2 = s.mtval2 := rfl
@[simp] theorem State.writeSsp_htval : (s.writeSsp w).htval = s.htval := rfl
@[simp] theorem State.writeSsp_medeleg : (s.writeSsp w).medeleg = s.medeleg := rfl
@[simp] theorem State.writeSsp_hedeleg : (s.writeSsp w).hedeleg = s.hedeleg := rfl
@[simp] theorem State.writeSsp_satpMode : (s.writeSsp w).satpMode = s.satpMode := rfl
@[simp] theorem State.writeSsp_vsatpMode : (s.writeSsp w).vsatpMode = s.vsatpMode := rfl
@[simp] theorem State.writeSsp_hgatpMode : (s.writeSsp w).hgatpMode = s.hgatpMode := rfl
@[simp] theorem State.writeSsp_mappings : (s.writeSsp w).mappings = s.mappings := rfl
@[simp] theorem State.writeSsp_pmp : (s.writeSsp w).pmp = s.pmp := rfl
@[simp] theorem State.writeSsp_pma : (s.writeSsp w).pma = s.pma := rfl
@[simp] theorem State.writeSsp_mem : (s.writeSsp w).mem = s.mem := rfl
@[simp] theorem State.writeSsp_draws : (s.writeSsp w).draws = s.draws := rfl

end

/-! ## advance -/

section
variable (s : State) (n : Nat)

@[simp] theorem State.advance_cfg : (s.advance n).cfg = s.cfg := rfl
@[simp] theorem State.advance_x : (s.advance n).x = s.x := rfl
@[simp] theorem State.advance_pc : (s.advance n).pc = s.pcAfter n := rfl
@[simp] theorem State.advance_ssp : (s.advance n).ssp = s.ssp := rfl
@[simp] theorem State.advance_priv : (s.advance n).priv = s.priv := rfl
@[simp] theorem State.advance_v : (s.advance n).v = s.v := rfl
@[simp] theorem State.advance_menvcfg : (s.advance n).menvcfg = s.menvcfg := rfl
@[simp] theorem State.advance_senvcfg : (s.advance n).senvcfg = s.senvcfg := rfl
@[simp] theorem State.advance_henvcfg : (s.advance n).henvcfg = s.henvcfg := rfl
@[simp] theorem State.advance_mstatus : (s.advance n).mstatus = s.mstatus := rfl
@[simp] theorem State.advance_hstatusSpv : (s.advance n).hstatusSpv = s.hstatusSpv := rfl
@[simp] theorem State.advance_vsstatus : (s.advance n).vsstatus = s.vsstatus := rfl
@[simp] theorem State.advance_mTrap : (s.advance n).mTrap = s.mTrap := rfl
@[simp] theorem State.advance_sTrap : (s.advance n).sTrap = s.sTrap := rfl
@[simp] theorem State.advance_vsTrap : (s.advance n).vsTrap = s.vsTrap := rfl
@[simp] theorem State.advance_mtval2 : (s.advance n).mtval2 = s.mtval2 := rfl
@[simp] theorem State.advance_htval : (s.advance n).htval = s.htval := rfl
@[simp] theorem State.advance_medeleg : (s.advance n).medeleg = s.medeleg := rfl
@[simp] theorem State.advance_hedeleg : (s.advance n).hedeleg = s.hedeleg := rfl
@[simp] theorem State.advance_satpMode : (s.advance n).satpMode = s.satpMode := rfl
@[simp] theorem State.advance_vsatpMode : (s.advance n).vsatpMode = s.vsatpMode := rfl
@[simp] theorem State.advance_hgatpMode : (s.advance n).hgatpMode = s.hgatpMode := rfl
@[simp] theorem State.advance_mappings : (s.advance n).mappings = s.mappings := rfl
@[simp] theorem State.advance_pmp : (s.advance n).pmp = s.pmp := rfl
@[simp] theorem State.advance_pma : (s.advance n).pma = s.pma := rfl
@[simp] theorem State.advance_mem : (s.advance n).mem = s.mem := rfl
@[simp] theorem State.advance_draws : (s.advance n).draws = s.draws := rfl

end

/-! ## storeAt -/

section
variable (s : State) (pa n : Nat) (w : Word)

@[simp] theorem State.storeAt_cfg : (s.storeAt pa n w).cfg = s.cfg := rfl
@[simp] theorem State.storeAt_x : (s.storeAt pa n w).x = s.x := rfl
@[simp] theorem State.storeAt_pc : (s.storeAt pa n w).pc = s.pc := rfl
@[simp] theorem State.storeAt_ssp : (s.storeAt pa n w).ssp = s.ssp := rfl
@[simp] theorem State.storeAt_priv : (s.storeAt pa n w).priv = s.priv := rfl
@[simp] theorem State.storeAt_v : (s.storeAt pa n w).v = s.v := rfl
@[simp] theorem State.storeAt_menvcfg : (s.storeAt pa n w).menvcfg = s.menvcfg := rfl
@[simp] theorem State.storeAt_senvcfg : (s.storeAt pa n w).senvcfg = s.senvcfg := rfl
@[simp] theorem State.storeAt_henvcfg : (s.storeAt pa n w).henvcfg = s.henvcfg := rfl
@[simp] theorem State.storeAt_mstatus : (s.storeAt pa n w).mstatus = s.mstatus := rfl
@[simp] theorem State.storeAt_hstatusSpv : (s.storeAt pa n w).hstatusSpv = s.hstatusSpv := rfl
@[simp] theorem State.storeAt_vsstatus : (s.storeAt pa n w).vsstatus = s.vsstatus := rfl
@[simp] theorem State.storeAt_mTrap : (s.storeAt pa n w).mTrap = s.mTrap := rfl
@[simp] theorem State.storeAt_sTrap : (s.storeAt pa n w).sTrap = s.sTrap := rfl
@[simp] theorem State.storeAt_vsTrap : (s.storeAt pa n w).vsTrap = s.vsTrap := rfl
@[simp] theorem State.storeAt_mtval2 : (s.storeAt pa n w).mtval2 = s.mtval2 := rfl
@[simp] theorem State.storeAt_htval : (s.storeAt pa n w).htval = s.htval := rfl
@[simp] theorem State.storeAt_medeleg : (s.storeAt pa n w).medeleg = s.medeleg := rfl
@[simp] theorem State.storeAt_hedeleg : (s.storeAt pa n w).hedeleg = s.hedeleg := rfl
@[simp] theorem State.storeAt_satpMode : (s.storeAt pa n w).satpMode = s.satpMode := rfl
@[simp] theorem State.storeAt_vsatpMode : (s.storeAt pa n w).vsatpMode = s.vsatpMode := rfl
@[simp] theorem State.storeAt_hgatpMode : (s.storeAt pa n w).hgatpMode = s.hgatpMode := rfl
@[simp] theorem State.storeAt_mappings : (s.storeAt pa n w).mappings = s.mappings := rfl
@[simp] theorem State.storeAt_pmp : (s.storeAt pa n w).pmp = s.pmp := rfl
@[simp] theorem State.storeAt_pma : (s.storeAt pa n w).pma = s.pma := rfl
@[simp] theorem State.storeAt_mem : (s.storeAt pa n w).mem = s.mem.store pa n w := rfl
@[simp] theorem State.storeAt_draws : (s.storeAt pa n w).draws = s.draws := rfl

end

/-! ## Taking an exception -/

section
variable (s : State) (e : Exc) (t : Target) (tval : Word)

@[simp] theorem State.noteGuestAddress_cfg : (s.noteGuestAddress e t).cfg = s.cfg := by
  unfold State.noteGuestAddress; split
  · cases t <;> rfl
  · rfl
@[simp] theorem State.noteGuestAddress_x : (s.noteGuestAddress e t).x = s.x := by
  unfold State.noteGuestAddress; split
  · cases t <;> rfl
  · rfl
@[simp] theorem State.noteGuestAddress_ssp : (s.noteGuestAddress e t).ssp = s.ssp := by
  unfold State.noteGuestAddress; split
  · cases t <;> rfl
  · rfl
@[simp] theorem State.noteGuestAddress_menvcfg : (s.noteGuestAddress e t).menvcfg = s.menvcfg := by
  unfold State.noteGuestAddress; split
  · cases t <;> rfl
  · rfl
@[simp] theorem State.noteGuestAddress_senvcfg : (s.noteGuestAddress e t).senvcfg = s.senvcfg := by
  unfold State.noteGuestAddress; split
  · cases t <;> rfl
  · rfl
@[simp] theorem State.noteGuestAddress_henvcfg : (s.noteGuestAddress e t).henvcfg = s.henvcfg := by
  unfold State.noteGuestAddress; split
  · cases t <;> rfl
  · rfl
@[simp] theorem State.noteGuestAddress_medeleg : (s.noteGuestAddress e t).medeleg = s.medeleg := by
  unfold State.noteGuestAddress; split
  · cases t <;> rfl
  · rfl
@[simp] theorem State.noteGuestAddress_hedeleg : (s.noteGuestAddress e t).hedeleg = s.hedeleg := by
  unfold State.noteGuestAddress; split
  · cases t <;> rfl
  · rfl
@[simp] theorem State.noteGuestAddress_satpMode : (s.noteGuestAddress e t).satpMode = s.satpMode := by
  unfold State.noteGuestAddress; split
  · cases t <;> rfl
  · rfl
@[simp] theorem State.noteGuestAddress_vsatpMode : (s.noteGuestAddress e t).vsatpMode = s.vsatpMode := by
  unfold State.noteGuestAddress; split
  · cases t <;> rfl
  · rfl
@[simp] theorem State.noteGuestAddress_hgatpMode : (s.noteGuestAddress e t).hgatpMode = s.hgatpMode := by
  unfold State.noteGuestAddress; split
  · cases t <;> rfl
  · rfl
@[simp] theorem State.noteGuestAddress_mappings : (s.noteGuestAddress e t).mappings = s.mappings := by
  unfold State.noteGuestAddress; split
  · cases t <;> rfl
  · rfl
@[simp] theorem State.noteGuestAddress_pmp : (s.noteGuestAddress e t).pmp = s.pmp := by
  unfold State.noteGuestAddress; split
  · cases t <;> rfl
  · rfl
@[simp] theorem State.noteGuestAddress_pma : (s.noteGuestAddress e t).pma = s.pma := by
  unfold State.noteGuestAddress; split
  · cases t <;> rfl
  · rfl
@[simp] theorem State.noteGuestAddress_mem : (s.noteGuestAddress e t).mem = s.mem := by
  unfold State.noteGuestAddress; split
  · cases t <;> rfl
  · rfl
@[simp] theorem State.noteGuestAddress_pc : (s.noteGuestAddress e t).pc = s.pc := by
  unfold State.noteGuestAddress; split
  · cases t <;> rfl
  · rfl
@[simp] theorem State.noteGuestAddress_priv : (s.noteGuestAddress e t).priv = s.priv := by
  unfold State.noteGuestAddress; split
  · cases t <;> rfl
  · rfl
@[simp] theorem State.noteGuestAddress_v : (s.noteGuestAddress e t).v = s.v := by
  unfold State.noteGuestAddress; split
  · cases t <;> rfl
  · rfl
@[simp] theorem State.noteGuestAddress_mstatus : (s.noteGuestAddress e t).mstatus = s.mstatus := by
  unfold State.noteGuestAddress; split
  · cases t <;> rfl
  · rfl
@[simp] theorem State.noteGuestAddress_hstatusSpv : (s.noteGuestAddress e t).hstatusSpv = s.hstatusSpv := by
  unfold State.noteGuestAddress; split
  · cases t <;> rfl
  · rfl
@[simp] theorem State.noteGuestAddress_vsstatus : (s.noteGuestAddress e t).vsstatus = s.vsstatus := by
  unfold State.noteGuestAddress; split
  · cases t <;> rfl
  · rfl
@[simp] theorem State.noteGuestAddress_mTrap : (s.noteGuestAddress e t).mTrap = s.mTrap := by
  unfold State.noteGuestAddress; split
  · cases t <;> rfl
  · rfl
@[simp] theorem State.noteGuestAddress_sTrap : (s.noteGuestAddress e t).sTrap = s.sTrap := by
  unfold State.noteGuestAddress; split
  · cases t <;> rfl
  · rfl
@[simp] theorem State.noteGuestAddress_vsTrap : (s.noteGuestAddress e t).vsTrap = s.vsTrap := by
  unfold State.noteGuestAddress; split
  · cases t <;> rfl
  · rfl
@[simp] theorem State.takeTrap_cfg : (s.takeTrap e tval).cfg = s.cfg := by
  unfold State.takeTrap; split <;> simp [State.enterM, State.enterS, State.enterVs]
@[simp] theorem State.takeTrap_x : (s.takeTrap e tval).x = s.x := by
  unfold State.takeTrap; split <;> simp [State.enterM, State.enterS, State.enterVs]
@[simp] theorem State.takeTrap_ssp : (s.takeTrap e tval).ssp = s.ssp := by
  unfold State.takeTrap; split <;> simp [State.enterM, State.enterS, State.enterVs]
@[simp] theorem State.takeTrap_menvcfg : (s.takeTrap e tval).menvcfg = s.menvcfg := by
  unfold State.takeTrap; split <;> simp [State.enterM, State.enterS, State.enterVs]
@[simp] theorem State.takeTrap_senvcfg : (s.takeTrap e tval).senvcfg = s.senvcfg := by
  unfold State.takeTrap; split <;> simp [State.enterM, State.enterS, State.enterVs]
@[simp] theorem State.takeTrap_henvcfg : (s.takeTrap e tval).henvcfg = s.henvcfg := by
  unfold State.takeTrap; split <;> simp [State.enterM, State.enterS, State.enterVs]
@[simp] theorem State.takeTrap_medeleg : (s.takeTrap e tval).medeleg = s.medeleg := by
  unfold State.takeTrap; split <;> simp [State.enterM, State.enterS, State.enterVs]
@[simp] theorem State.takeTrap_hedeleg : (s.takeTrap e tval).hedeleg = s.hedeleg := by
  unfold State.takeTrap; split <;> simp [State.enterM, State.enterS, State.enterVs]
@[simp] theorem State.takeTrap_satpMode : (s.takeTrap e tval).satpMode = s.satpMode := by
  unfold State.takeTrap; split <;> simp [State.enterM, State.enterS, State.enterVs]
@[simp] theorem State.takeTrap_vsatpMode : (s.takeTrap e tval).vsatpMode = s.vsatpMode := by
  unfold State.takeTrap; split <;> simp [State.enterM, State.enterS, State.enterVs]
@[simp] theorem State.takeTrap_hgatpMode : (s.takeTrap e tval).hgatpMode = s.hgatpMode := by
  unfold State.takeTrap; split <;> simp [State.enterM, State.enterS, State.enterVs]
@[simp] theorem State.takeTrap_mappings : (s.takeTrap e tval).mappings = s.mappings := by
  unfold State.takeTrap; split <;> simp [State.enterM, State.enterS, State.enterVs]
@[simp] theorem State.takeTrap_pmp : (s.takeTrap e tval).pmp = s.pmp := by
  unfold State.takeTrap; split <;> simp [State.enterM, State.enterS, State.enterVs]
@[simp] theorem State.takeTrap_pma : (s.takeTrap e tval).pma = s.pma := by
  unfold State.takeTrap; split <;> simp [State.enterM, State.enterS, State.enterVs]
@[simp] theorem State.takeTrap_mem : (s.takeTrap e tval).mem = s.mem := by
  unfold State.takeTrap; split <;> simp [State.enterM, State.enterS, State.enterVs]

end

section
variable (s : State) (e : Exc) (va : Word)

@[simp] theorem State.raiseAddr_cfg : (s.raiseAddr e va).cfg = s.cfg := by
  simp [State.raiseAddr]
@[simp] theorem State.raiseAddr_x : (s.raiseAddr e va).x = s.x := by
  simp [State.raiseAddr]
@[simp] theorem State.raiseAddr_ssp : (s.raiseAddr e va).ssp = s.ssp := by
  simp [State.raiseAddr]
@[simp] theorem State.raiseAddr_menvcfg : (s.raiseAddr e va).menvcfg = s.menvcfg := by
  simp [State.raiseAddr]
@[simp] theorem State.raiseAddr_senvcfg : (s.raiseAddr e va).senvcfg = s.senvcfg := by
  simp [State.raiseAddr]
@[simp] theorem State.raiseAddr_henvcfg : (s.raiseAddr e va).henvcfg = s.henvcfg := by
  simp [State.raiseAddr]
@[simp] theorem State.raiseAddr_medeleg : (s.raiseAddr e va).medeleg = s.medeleg := by
  simp [State.raiseAddr]
@[simp] theorem State.raiseAddr_hedeleg : (s.raiseAddr e va).hedeleg = s.hedeleg := by
  simp [State.raiseAddr]
@[simp] theorem State.raiseAddr_satpMode : (s.raiseAddr e va).satpMode = s.satpMode := by
  simp [State.raiseAddr]
@[simp] theorem State.raiseAddr_vsatpMode : (s.raiseAddr e va).vsatpMode = s.vsatpMode := by
  simp [State.raiseAddr]
@[simp] theorem State.raiseAddr_hgatpMode : (s.raiseAddr e va).hgatpMode = s.hgatpMode := by
  simp [State.raiseAddr]
@[simp] theorem State.raiseAddr_mappings : (s.raiseAddr e va).mappings = s.mappings := by
  simp [State.raiseAddr]
@[simp] theorem State.raiseAddr_pmp : (s.raiseAddr e va).pmp = s.pmp := by
  simp [State.raiseAddr]
@[simp] theorem State.raiseAddr_pma : (s.raiseAddr e va).pma = s.pma := by
  simp [State.raiseAddr]
@[simp] theorem State.raiseAddr_mem : (s.raiseAddr e va).mem = s.mem := by
  simp [State.raiseAddr]

end

section
variable (s : State) (e : Exc) (w : BitVec 32)

@[simp] theorem State.raiseInsn_cfg : (s.raiseInsn e w).cfg = s.cfg := by
  simp [State.raiseInsn]
@[simp] theorem State.raiseInsn_x : (s.raiseInsn e w).x = s.x := by
  simp [State.raiseInsn]
@[simp] theorem State.raiseInsn_ssp : (s.raiseInsn e w).ssp = s.ssp := by
  simp [State.raiseInsn]
@[simp] theorem State.raiseInsn_menvcfg : (s.raiseInsn e w).menvcfg = s.menvcfg := by
  simp [State.raiseInsn]
@[simp] theorem State.raiseInsn_senvcfg : (s.raiseInsn e w).senvcfg = s.senvcfg := by
  simp [State.raiseInsn]
@[simp] theorem State.raiseInsn_henvcfg : (s.raiseInsn e w).henvcfg = s.henvcfg := by
  simp [State.raiseInsn]
@[simp] theorem State.raiseInsn_medeleg : (s.raiseInsn e w).medeleg = s.medeleg := by
  simp [State.raiseInsn]
@[simp] theorem State.raiseInsn_hedeleg : (s.raiseInsn e w).hedeleg = s.hedeleg := by
  simp [State.raiseInsn]
@[simp] theorem State.raiseInsn_satpMode : (s.raiseInsn e w).satpMode = s.satpMode := by
  simp [State.raiseInsn]
@[simp] theorem State.raiseInsn_vsatpMode : (s.raiseInsn e w).vsatpMode = s.vsatpMode := by
  simp [State.raiseInsn]
@[simp] theorem State.raiseInsn_hgatpMode : (s.raiseInsn e w).hgatpMode = s.hgatpMode := by
  simp [State.raiseInsn]
@[simp] theorem State.raiseInsn_mappings : (s.raiseInsn e w).mappings = s.mappings := by
  simp [State.raiseInsn]
@[simp] theorem State.raiseInsn_pmp : (s.raiseInsn e w).pmp = s.pmp := by
  simp [State.raiseInsn]
@[simp] theorem State.raiseInsn_pma : (s.raiseInsn e w).pma = s.pma := by
  simp [State.raiseInsn]
@[simp] theorem State.raiseInsn_mem : (s.raiseInsn e w).mem = s.mem := by
  simp [State.raiseInsn]

end

section
variable (s : State) 

@[simp] theorem State.raiseSoftwareCheck_cfg : (s.raiseSoftwareCheck ).cfg = s.cfg := by
  simp [State.raiseSoftwareCheck]
@[simp] theorem State.raiseSoftwareCheck_x : (s.raiseSoftwareCheck ).x = s.x := by
  simp [State.raiseSoftwareCheck]
@[simp] theorem State.raiseSoftwareCheck_ssp : (s.raiseSoftwareCheck ).ssp = s.ssp := by
  simp [State.raiseSoftwareCheck]
@[simp] theorem State.raiseSoftwareCheck_menvcfg : (s.raiseSoftwareCheck ).menvcfg = s.menvcfg := by
  simp [State.raiseSoftwareCheck]
@[simp] theorem State.raiseSoftwareCheck_senvcfg : (s.raiseSoftwareCheck ).senvcfg = s.senvcfg := by
  simp [State.raiseSoftwareCheck]
@[simp] theorem State.raiseSoftwareCheck_henvcfg : (s.raiseSoftwareCheck ).henvcfg = s.henvcfg := by
  simp [State.raiseSoftwareCheck]
@[simp] theorem State.raiseSoftwareCheck_medeleg : (s.raiseSoftwareCheck ).medeleg = s.medeleg := by
  simp [State.raiseSoftwareCheck]
@[simp] theorem State.raiseSoftwareCheck_hedeleg : (s.raiseSoftwareCheck ).hedeleg = s.hedeleg := by
  simp [State.raiseSoftwareCheck]
@[simp] theorem State.raiseSoftwareCheck_satpMode : (s.raiseSoftwareCheck ).satpMode = s.satpMode := by
  simp [State.raiseSoftwareCheck]
@[simp] theorem State.raiseSoftwareCheck_vsatpMode : (s.raiseSoftwareCheck ).vsatpMode = s.vsatpMode := by
  simp [State.raiseSoftwareCheck]
@[simp] theorem State.raiseSoftwareCheck_hgatpMode : (s.raiseSoftwareCheck ).hgatpMode = s.hgatpMode := by
  simp [State.raiseSoftwareCheck]
@[simp] theorem State.raiseSoftwareCheck_mappings : (s.raiseSoftwareCheck ).mappings = s.mappings := by
  simp [State.raiseSoftwareCheck]
@[simp] theorem State.raiseSoftwareCheck_pmp : (s.raiseSoftwareCheck ).pmp = s.pmp := by
  simp [State.raiseSoftwareCheck]
@[simp] theorem State.raiseSoftwareCheck_pma : (s.raiseSoftwareCheck ).pma = s.pma := by
  simp [State.raiseSoftwareCheck]
@[simp] theorem State.raiseSoftwareCheck_mem : (s.raiseSoftwareCheck ).mem = s.mem := by
  simp [State.raiseSoftwareCheck]

end

section
variable (s : State) (e : Exc) (es : List Exc) (va : Word)

@[simp] theorem State.raiseSs_cfg : (s.raiseSs e es va).cfg = s.cfg := by
  simp [State.raiseSs, State.raiseAddr]
@[simp] theorem State.raiseSs_x : (s.raiseSs e es va).x = s.x := by
  simp [State.raiseSs, State.raiseAddr]
@[simp] theorem State.raiseSs_ssp : (s.raiseSs e es va).ssp = s.ssp := by
  simp [State.raiseSs, State.raiseAddr]
@[simp] theorem State.raiseSs_menvcfg : (s.raiseSs e es va).menvcfg = s.menvcfg := by
  simp [State.raiseSs, State.raiseAddr]
@[simp] theorem State.raiseSs_senvcfg : (s.raiseSs e es va).senvcfg = s.senvcfg := by
  simp [State.raiseSs, State.raiseAddr]
@[simp] theorem State.raiseSs_henvcfg : (s.raiseSs e es va).henvcfg = s.henvcfg := by
  simp [State.raiseSs, State.raiseAddr]
@[simp] theorem State.raiseSs_medeleg : (s.raiseSs e es va).medeleg = s.medeleg := by
  simp [State.raiseSs, State.raiseAddr]
@[simp] theorem State.raiseSs_hedeleg : (s.raiseSs e es va).hedeleg = s.hedeleg := by
  simp [State.raiseSs, State.raiseAddr]
@[simp] theorem State.raiseSs_satpMode : (s.raiseSs e es va).satpMode = s.satpMode := by
  simp [State.raiseSs, State.raiseAddr]
@[simp] theorem State.raiseSs_vsatpMode : (s.raiseSs e es va).vsatpMode = s.vsatpMode := by
  simp [State.raiseSs, State.raiseAddr]
@[simp] theorem State.raiseSs_hgatpMode : (s.raiseSs e es va).hgatpMode = s.hgatpMode := by
  simp [State.raiseSs, State.raiseAddr]
@[simp] theorem State.raiseSs_mappings : (s.raiseSs e es va).mappings = s.mappings := by
  simp [State.raiseSs, State.raiseAddr]
@[simp] theorem State.raiseSs_pmp : (s.raiseSs e es va).pmp = s.pmp := by
  simp [State.raiseSs, State.raiseAddr]
@[simp] theorem State.raiseSs_pma : (s.raiseSs e es va).pma = s.pma := by
  simp [State.raiseSs, State.raiseAddr]
@[simp] theorem State.raiseSs_mem : (s.raiseSs e es va).mem = s.mem := by
  simp [State.raiseSs, State.raiseAddr]

end

/-! ## Reads that an update does not reach -/

section
variable (s : State)

theorem State.trunc_congr {s t : State} (h : t.cfg = s.cfg) (w : Word) : t.trunc w = s.trunc w := by
  simp [State.trunc, h]

@[simp] theorem State.writeX_trunc (r : RegIdx) (w u : Word) : (s.writeX r w).trunc u = s.trunc u := rfl
@[simp] theorem State.writeSsp_trunc (w u : Word) : (s.writeSsp w).trunc u = s.trunc u := rfl
@[simp] theorem State.storeAt_trunc (pa n : Nat) (w u : Word) : (s.storeAt pa n w).trunc u = s.trunc u := rfl
@[simp] theorem State.advance_trunc (n : Nat) (u : Word) : (s.advance n).trunc u = s.trunc u := rfl
@[simp] theorem State.writeSsp_readX (w : Word) (r : RegIdx) : (s.writeSsp w).readX r = s.readX r := rfl
@[simp] theorem State.storeAt_readX (pa n : Nat) (w : Word) (r : RegIdx) : (s.storeAt pa n w).readX r = s.readX r := rfl
@[simp] theorem State.advance_readX (n : Nat) (r : RegIdx) : (s.advance n).readX r = s.readX r := rfl
@[simp] theorem State.writeX_readSsp (r : RegIdx) (w : Word) : (s.writeX r w).readSsp = s.readSsp := rfl
@[simp] theorem State.storeAt_readSsp (pa n : Nat) (w : Word) : (s.storeAt pa n w).readSsp = s.readSsp := rfl
@[simp] theorem State.advance_readSsp (n : Nat) : (s.advance n).readSsp = s.readSsp := rfl
@[simp] theorem State.writeX_pcAfter (r : RegIdx) (w : Word) (n : Nat) : (s.writeX r w).pcAfter n = s.pcAfter n := rfl
@[simp] theorem State.writeSsp_pcAfter (w : Word) (n : Nat) : (s.writeSsp w).pcAfter n = s.pcAfter n := rfl
@[simp] theorem State.storeAt_pcAfter (pa k : Nat) (w : Word) (n : Nat) : (s.storeAt pa k w).pcAfter n = s.pcAfter n := rfl

end

/-! ## Returning from a trap -/

section
variable (s : State)

@[simp] theorem State.returnM_cfg : (s.returnM).cfg = s.cfg := rfl
@[simp] theorem State.returnM_x : (s.returnM).x = s.x := rfl
@[simp] theorem State.returnM_pc : (s.returnM).pc = s.mTrap.epc := rfl
@[simp] theorem State.returnM_ssp : (s.returnM).ssp = s.ssp := rfl
@[simp] theorem State.returnM_priv : (s.returnM).priv = s.mstatus.mpp := rfl
@[simp] theorem State.returnM_v : (s.returnM).v = (s.mstatus.mpp != .machine && s.cfg.hasH && s.mstatus.mpv) := rfl
@[simp] theorem State.returnM_menvcfg : (s.returnM).menvcfg = s.menvcfg := rfl
@[simp] theorem State.returnM_senvcfg : (s.returnM).senvcfg = s.senvcfg := rfl
@[simp] theorem State.returnM_henvcfg : (s.returnM).henvcfg = s.henvcfg := rfl
@[simp] theorem State.returnM_mstatus : (s.returnM).mstatus = { s.mstatus with mie := s.mstatus.mpie, mpie := true, mpp := .user, mpv := false } := rfl
@[simp] theorem State.returnM_hstatusSpv : (s.returnM).hstatusSpv = s.hstatusSpv := rfl
@[simp] theorem State.returnM_vsstatus : (s.returnM).vsstatus = s.vsstatus := rfl
@[simp] theorem State.returnM_mTrap : (s.returnM).mTrap = s.mTrap := rfl
@[simp] theorem State.returnM_sTrap : (s.returnM).sTrap = s.sTrap := rfl
@[simp] theorem State.returnM_vsTrap : (s.returnM).vsTrap = s.vsTrap := rfl
@[simp] theorem State.returnM_mtval2 : (s.returnM).mtval2 = s.mtval2 := rfl
@[simp] theorem State.returnM_htval : (s.returnM).htval = s.htval := rfl
@[simp] theorem State.returnM_medeleg : (s.returnM).medeleg = s.medeleg := rfl
@[simp] theorem State.returnM_hedeleg : (s.returnM).hedeleg = s.hedeleg := rfl
@[simp] theorem State.returnM_satpMode : (s.returnM).satpMode = s.satpMode := rfl
@[simp] theorem State.returnM_vsatpMode : (s.returnM).vsatpMode = s.vsatpMode := rfl
@[simp] theorem State.returnM_hgatpMode : (s.returnM).hgatpMode = s.hgatpMode := rfl
@[simp] theorem State.returnM_mappings : (s.returnM).mappings = s.mappings := rfl
@[simp] theorem State.returnM_pmp : (s.returnM).pmp = s.pmp := rfl
@[simp] theorem State.returnM_pma : (s.returnM).pma = s.pma := rfl
@[simp] theorem State.returnM_mem : (s.returnM).mem = s.mem := rfl
@[simp] theorem State.returnM_draws : (s.returnM).draws = s.draws := rfl

end

/-! ## returnS -/

section
variable (s : State)

@[simp] theorem State.returnS_cfg : (s.returnS).cfg = s.cfg := rfl
@[simp] theorem State.returnS_x : (s.returnS).x = s.x := rfl
@[simp] theorem State.returnS_pc : (s.returnS).pc = s.sTrap.epc := rfl
@[simp] theorem State.returnS_ssp : (s.returnS).ssp = s.ssp := rfl
@[simp] theorem State.returnS_priv : (s.returnS).priv = privOfSpp s.mstatus.spp := rfl
@[simp] theorem State.returnS_v : (s.returnS).v = (s.cfg.hasH && s.hstatusSpv) := rfl
@[simp] theorem State.returnS_menvcfg : (s.returnS).menvcfg = s.menvcfg := rfl
@[simp] theorem State.returnS_senvcfg : (s.returnS).senvcfg = s.senvcfg := rfl
@[simp] theorem State.returnS_henvcfg : (s.returnS).henvcfg = s.henvcfg := rfl
@[simp] theorem State.returnS_mstatus : (s.returnS).mstatus = { s.mstatus with sie := s.mstatus.spie, spie := true, spp := false } := rfl
@[simp] theorem State.returnS_hstatusSpv : (s.returnS).hstatusSpv = false := rfl
@[simp] theorem State.returnS_vsstatus : (s.returnS).vsstatus = s.vsstatus := rfl
@[simp] theorem State.returnS_mTrap : (s.returnS).mTrap = s.mTrap := rfl
@[simp] theorem State.returnS_sTrap : (s.returnS).sTrap = s.sTrap := rfl
@[simp] theorem State.returnS_vsTrap : (s.returnS).vsTrap = s.vsTrap := rfl
@[simp] theorem State.returnS_mtval2 : (s.returnS).mtval2 = s.mtval2 := rfl
@[simp] theorem State.returnS_htval : (s.returnS).htval = s.htval := rfl
@[simp] theorem State.returnS_medeleg : (s.returnS).medeleg = s.medeleg := rfl
@[simp] theorem State.returnS_hedeleg : (s.returnS).hedeleg = s.hedeleg := rfl
@[simp] theorem State.returnS_satpMode : (s.returnS).satpMode = s.satpMode := rfl
@[simp] theorem State.returnS_vsatpMode : (s.returnS).vsatpMode = s.vsatpMode := rfl
@[simp] theorem State.returnS_hgatpMode : (s.returnS).hgatpMode = s.hgatpMode := rfl
@[simp] theorem State.returnS_mappings : (s.returnS).mappings = s.mappings := rfl
@[simp] theorem State.returnS_pmp : (s.returnS).pmp = s.pmp := rfl
@[simp] theorem State.returnS_pma : (s.returnS).pma = s.pma := rfl
@[simp] theorem State.returnS_mem : (s.returnS).mem = s.mem := rfl
@[simp] theorem State.returnS_draws : (s.returnS).draws = s.draws := rfl

end

/-! ## returnVs -/

section
variable (s : State)

@[simp] theorem State.returnVs_cfg : (s.returnVs).cfg = s.cfg := rfl
@[simp] theorem State.returnVs_x : (s.returnVs).x = s.x := rfl
@[simp] theorem State.returnVs_pc : (s.returnVs).pc = s.vsTrap.epc := rfl
@[simp] theorem State.returnVs_ssp : (s.returnVs).ssp = s.ssp := rfl
@[simp] theorem State.returnVs_priv : (s.returnVs).priv = privOfSpp s.vsstatus.spp := rfl
@[simp] theorem State.returnVs_v : (s.returnVs).v = true := rfl
@[simp] theorem State.returnVs_menvcfg : (s.returnVs).menvcfg = s.menvcfg := rfl
@[simp] theorem State.returnVs_senvcfg : (s.returnVs).senvcfg = s.senvcfg := rfl
@[simp] theorem State.returnVs_henvcfg : (s.returnVs).henvcfg = s.henvcfg := rfl
@[simp] theorem State.returnVs_mstatus : (s.returnVs).mstatus = s.mstatus := rfl
@[simp] theorem State.returnVs_hstatusSpv : (s.returnVs).hstatusSpv = s.hstatusSpv := rfl
@[simp] theorem State.returnVs_vsstatus : (s.returnVs).vsstatus = { s.vsstatus with sie := s.vsstatus.spie, spie := true, spp := false } := rfl
@[simp] theorem State.returnVs_mTrap : (s.returnVs).mTrap = s.mTrap := rfl
@[simp] theorem State.returnVs_sTrap : (s.returnVs).sTrap = s.sTrap := rfl
@[simp] theorem State.returnVs_vsTrap : (s.returnVs).vsTrap = s.vsTrap := rfl
@[simp] theorem State.returnVs_mtval2 : (s.returnVs).mtval2 = s.mtval2 := rfl
@[simp] theorem State.returnVs_htval : (s.returnVs).htval = s.htval := rfl
@[simp] theorem State.returnVs_medeleg : (s.returnVs).medeleg = s.medeleg := rfl
@[simp] theorem State.returnVs_hedeleg : (s.returnVs).hedeleg = s.hedeleg := rfl
@[simp] theorem State.returnVs_satpMode : (s.returnVs).satpMode = s.satpMode := rfl
@[simp] theorem State.returnVs_vsatpMode : (s.returnVs).vsatpMode = s.vsatpMode := rfl
@[simp] theorem State.returnVs_hgatpMode : (s.returnVs).hgatpMode = s.hgatpMode := rfl
@[simp] theorem State.returnVs_mappings : (s.returnVs).mappings = s.mappings := rfl
@[simp] theorem State.returnVs_pmp : (s.returnVs).pmp = s.pmp := rfl
@[simp] theorem State.returnVs_pma : (s.returnVs).pma = s.pma := rfl
@[simp] theorem State.returnVs_mem : (s.returnVs).mem = s.mem := rfl
@[simp] theorem State.returnVs_draws : (s.returnVs).draws = s.draws := rfl

end

/-! ## writeEnv -/

section
variable (s : State) (c : EnvCsr) (w : Word)

/-- A write to an environment register changes the three registers and the counter of draws, and nothing else. -/
theorem State.writeEnv_frame : s.writeEnv c w =
    { s with
      menvcfg := (s.writeEnv c w).menvcfg
      senvcfg := (s.writeEnv c w).senvcfg
      henvcfg := (s.writeEnv c w).henvcfg
      draws := (s.writeEnv c w).draws } := by
  cases c
  case menvcfg =>
    show s.writeMenvcfg w = _
    simp only [State.writeEnv]
    generalize h : s.writeMenvcfg w = t
    simp only [State.writeMenvcfg] at h
    split at h
    · subst h; rfl
    · split at h <;> subst h <;> rfl
  all_goals rfl

@[simp] theorem State.writeEnv_cfg : (s.writeEnv c w).cfg = s.cfg := by rw [s.writeEnv_frame c w]
@[simp] theorem State.writeEnv_x : (s.writeEnv c w).x = s.x := by rw [s.writeEnv_frame c w]
@[simp] theorem State.writeEnv_pc : (s.writeEnv c w).pc = s.pc := by rw [s.writeEnv_frame c w]
@[simp] theorem State.writeEnv_ssp : (s.writeEnv c w).ssp = s.ssp := by rw [s.writeEnv_frame c w]
@[simp] theorem State.writeEnv_priv : (s.writeEnv c w).priv = s.priv := by rw [s.writeEnv_frame c w]
@[simp] theorem State.writeEnv_v : (s.writeEnv c w).v = s.v := by rw [s.writeEnv_frame c w]
@[simp] theorem State.writeEnv_mstatus : (s.writeEnv c w).mstatus = s.mstatus := by rw [s.writeEnv_frame c w]
@[simp] theorem State.writeEnv_hstatusSpv : (s.writeEnv c w).hstatusSpv = s.hstatusSpv := by rw [s.writeEnv_frame c w]
@[simp] theorem State.writeEnv_vsstatus : (s.writeEnv c w).vsstatus = s.vsstatus := by rw [s.writeEnv_frame c w]
@[simp] theorem State.writeEnv_mTrap : (s.writeEnv c w).mTrap = s.mTrap := by rw [s.writeEnv_frame c w]
@[simp] theorem State.writeEnv_sTrap : (s.writeEnv c w).sTrap = s.sTrap := by rw [s.writeEnv_frame c w]
@[simp] theorem State.writeEnv_vsTrap : (s.writeEnv c w).vsTrap = s.vsTrap := by rw [s.writeEnv_frame c w]
@[simp] theorem State.writeEnv_mtval2 : (s.writeEnv c w).mtval2 = s.mtval2 := by rw [s.writeEnv_frame c w]
@[simp] theorem State.writeEnv_htval : (s.writeEnv c w).htval = s.htval := by rw [s.writeEnv_frame c w]
@[simp] theorem State.writeEnv_medeleg : (s.writeEnv c w).medeleg = s.medeleg := by rw [s.writeEnv_frame c w]
@[simp] theorem State.writeEnv_hedeleg : (s.writeEnv c w).hedeleg = s.hedeleg := by rw [s.writeEnv_frame c w]
@[simp] theorem State.writeEnv_satpMode : (s.writeEnv c w).satpMode = s.satpMode := by rw [s.writeEnv_frame c w]
@[simp] theorem State.writeEnv_vsatpMode : (s.writeEnv c w).vsatpMode = s.vsatpMode := by rw [s.writeEnv_frame c w]
@[simp] theorem State.writeEnv_hgatpMode : (s.writeEnv c w).hgatpMode = s.hgatpMode := by rw [s.writeEnv_frame c w]
@[simp] theorem State.writeEnv_mappings : (s.writeEnv c w).mappings = s.mappings := by rw [s.writeEnv_frame c w]
@[simp] theorem State.writeEnv_pmp : (s.writeEnv c w).pmp = s.pmp := by rw [s.writeEnv_frame c w]
@[simp] theorem State.writeEnv_pma : (s.writeEnv c w).pma = s.pma := by rw [s.writeEnv_frame c w]
@[simp] theorem State.writeEnv_mem : (s.writeEnv c w).mem = s.mem := by rw [s.writeEnv_frame c w]

end

end Sys2Proof.Machine
end

