-- ==== Sys2Proof/Laws/Ops.lean ====
section
/-! SUPPORT. One lemma per shared operation: what it can do, for proofs to cite instead of unfolding it. -/

namespace Sys2Proof.Machine

/-! ## Widths -/

theorem truncTo_getLsbD (x : Config.Xlen) (w : Word) (i : Nat) :
    (truncTo x w).getLsbD i = (decide (i < xlenBits x) && w.getLsbD i) := by
  cases x
  · by_cases hi : i < 32
    · simp [truncTo, xlenBits, hi]; omega
    · simp [truncTo, xlenBits, hi]
  · by_cases hi : i < 64
    · simp [truncTo, xlenBits, hi]
    · simp [truncTo, xlenBits, BitVec.getLsbD_of_ge w i (by omega)]

@[simp] theorem truncTo_truncTo (x : Config.Xlen) (w : Word) : truncTo x (truncTo x w) = truncTo x w := by
  apply BitVec.eq_of_getLsbD_eq
  intro i _
  simp [truncTo_getLsbD]

@[simp] theorem truncTo_zero (x : Config.Xlen) : truncTo x 0 = 0 := by cases x <;> rfl

@[simp] theorem State.trunc_trunc (s : State) (w : Word) : s.trunc (s.trunc w) = s.trunc w :=
  truncTo_truncTo _ _

theorem truncTo_and (x : Config.Xlen) (w m : Word) : truncTo x (w &&& m) = truncTo x w &&& m := by
  apply BitVec.eq_of_getLsbD_eq
  intro i _
  simp [truncTo_getLsbD, Bool.and_assoc]

@[simp] theorem State.trunc_legalSsp (s : State) (w : Word) : s.trunc (s.legalSsp w) = s.legalSsp w := by
  simp [State.legalSsp, State.trunc, truncTo_and]

@[simp] theorem State.legalSsp_legalSsp (s : State) (w : Word) : s.legalSsp (s.legalSsp w) = s.legalSsp w := by
  conv_lhs => rw [State.legalSsp, State.trunc_legalSsp]
  simp [State.legalSsp, BitVec.and_assoc]

@[simp] theorem State.writeSsp_readSsp (s : State) (w : Word) : (s.writeSsp w).readSsp = s.legalSsp w :=
  State.legalSsp_legalSsp s w

/-! ## Registers -/

@[simp] theorem State.readX_zero (s : State) : s.readX 0 = 0 := by simp [State.readX]

theorem State.writeX_readX_same (s : State) (r : RegIdx) (w : Word) (h : r ≠ 0) :
    (s.writeX r w).readX r = s.trunc w := by
  unfold State.readX State.writeX
  simp only [if_neg h, State.trunc]
  rw [Vector.getElem_set_self, truncTo_truncTo]

theorem State.writeX_readX_other (s : State) (r r' : RegIdx) (w : Word) (h : r' ≠ r) :
    (s.writeX r w).readX r' = s.readX r' := by
  unfold State.readX State.writeX
  by_cases h0 : r = 0
  · simp [h0, State.trunc]
  · have hn : r.toNat ≠ r'.toNat := fun he => h (BitVec.eq_of_toNat_eq he.symm)
    simp only [h0, if_false, State.trunc]
    rw [Vector.getElem_set_ne (h := hn)]

/-- A write to `x0` is discarded. -/
@[simp] theorem State.writeX_zero (s : State) (w : Word) : s.writeX 0 w = s := rfl

/-! ## Memory operations keep the canonical form -/

theorem Memory.scatter_wf (as : List Nat) : ∀ (m : Memory) (v : Word), Memory.wf m = true →
    Memory.wf (Memory.scatter m as v) = true := by
  induction as with
  | nil => intro m v h; exact h
  | cons a as ih => intro m v h; exact ih _ _ (Memory.write_wf m a _ h)

theorem State.placeFetched_wf (s : State) (bs : List Byte) : ∀ (m : Memory) (k : Nat), Memory.wf m = true →
    Memory.wf (s.placeFetched m k bs) = true := by
  induction bs with
  | nil => intro m k h; exact h
  | cons b bs ih => intro m k h; exact ih _ _ (Memory.write_wf m _ b h)

/-- An ordinary store keeps the canonical form. -/
theorem State.memWrite_wf {s t : State} {va : Word} {n : Nat} {v : Word} (hs : Memory.wf s.mem = true)
    (h : s.memWrite va n v = .ok t) : Memory.wf t.mem = true := by
  unfold State.memWrite at h
  split at h
  · cases h
  · cases h; exact Memory.scatter_wf _ _ _ hs

/-! ## Taking an exception -/

/-- Taking an exception records it in the target mode and does nothing else (60 R170). -/
theorem State.takeTrap_taken (s : State) (e : Exc) (tval : Word) : TrapTaken s e tval (s.takeTrap e tval) := by
  unfold TrapTaken State.takeTrap
  cases s.trapTarget e <;>
    simp [State.enterM, State.enterS, State.enterVs, State.savedRegs]

theorem State.readX_congr {s t : State} (hc : t.cfg = s.cfg) (hx : t.x = s.x) (r : RegIdx) : t.readX r = s.readX r := by
  simp [State.readX, State.trunc, hc, hx]

theorem State.readSsp_congr {s t : State} (hc : t.cfg = s.cfg) (hx : t.ssp = s.ssp) : t.readSsp = s.readSsp := by
  simp [State.readSsp, State.legalSsp, State.trunc, hc, hx]

/-- Taking an exception writes no register, no `ssp`, no memory and no platform state (60 R168). -/
theorem State.takeTrap_nothingWritten (s : State) (e : Exc) (tval : Word) : NothingWritten s (s.takeTrap e tval) := by
  refine ⟨fun r => State.readX_congr (by simp) (by simp) r, State.readSsp_congr (by simp) (by simp),
    fun a => by simp, ?_⟩
  unfold SamePlatform SameTables SameEnv
  have ht : (s.takeTrap e tval).mTrap.tvec = s.mTrap.tvec ∧ (s.takeTrap e tval).sTrap.tvec = s.sTrap.tvec ∧
      (s.takeTrap e tval).vsTrap.tvec = s.vsTrap.tvec := by
    unfold State.takeTrap
    cases s.trapTarget e <;> simp [State.enterM, State.enterS, State.enterVs, State.savedRegs]
  simp [ht]

/-! ## The shadow-stack access check -/

/-- A shadow-stack access either goes on at its physical address, nothing applying, or raises one of the faults that
apply. -/
theorem State.withSsAccess_cases (s : State) (op : SsOp) (va : Word) (n : Nat) (go : Nat → State) :
    (s.ssFaults op va n = [] ∧ s.withSsAccess op va n go = go (s.ssAddr op va n)) ∨
    ∃ e es, s.ssFaults op va n = e :: es ∧ s.withSsAccess op va n go = s.raiseSs e es va := by
  unfold State.withSsAccess
  cases h : s.ssFaults op va n with
  | nil => exact .inl ⟨rfl, rfl⟩
  | cons e es => exact .inr ⟨e, es, rfl, rfl⟩

theorem State.withSsAccess_pass {s : State} {op : SsOp} {va : Word} {n : Nat} (h : s.ssFaults op va n = [])
    (go : Nat → State) : s.withSsAccess op va n go = go (s.ssAddr op va n) := by
  simp [State.withSsAccess, h]

theorem State.withSsAccess_fail {s : State} {op : SsOp} {va : Word} {n : Nat} {e : Exc} {es : List Exc}
    (h : s.ssFaults op va n = e :: es) (go : Nat → State) : s.withSsAccess op va n go = s.raiseSs e es va := by
  simp [State.withSsAccess, h]

/-- The fault reported is one of those that apply (92 D11). -/
theorem State.reported_mem (s : State) (e : Exc) (es : List Exc) : s.reported e es ∈ e :: es := by
  unfold State.reported
  split
  · simp
  · simp
  · rename_i e' es' _
    have hl : Config.faultChoice s.draws % ((e' :: es').length + 1) < (e :: e' :: es').length :=
      Nat.mod_lt _ (Nat.succ_pos _)
    rw [List.getD_eq_getElem _ _ hl]
    exact List.getElem_mem hl

/-! ## Ordinary accesses -/

/-- The places of an ordinary access are as many as its bytes. -/
theorem State.ordinaryBytes_length {s : State} {kind : AccessKind} {p : Priv} {v : Bool} (n : Nat) :
    ∀ {va : Word} {as : List Nat}, s.ordinaryBytes kind p v va n = .ok as → as.length = n := by
  induction n with
  | zero => intro va as h; cases h; rfl
  | succ n ih =>
    intro va as h
    simp only [State.ordinaryBytes] at h
    split at h
    · cases h
    · split at h
      · cases h
      · next bs hb => cases h; simp [ih hb]

/-- A store writes memory alone, at the places its check gave. -/
theorem State.memWrite_cases {s t : State} {va w : Word} {n : Nat} (h : s.memWrite va n w = .ok t) :
    ∃ as, s.ordinaryBytes .store s.effMode.1 s.effMode.2 va n = .ok as ∧ as.length = n ∧
      t = { s with mem := s.mem.scatter as w } := by
  unfold State.memWrite at h
  split at h
  · cases h
  · next as ha => cases h; exact ⟨as, ha, State.ordinaryBytes_length n ha, rfl⟩

/-- A store changes no byte outside the places its check gave. -/
theorem Memory.read_scatter_other (as : List Nat) : ∀ (m : Memory) (w : Word) (a : Nat), a ∉ as →
    Memory.read (Memory.scatter m as w) a = Memory.read m a := by
  induction as with
  | nil => intro m w a _; rfl
  | cons b as ih =>
    intro m w a h
    rw [List.mem_cons, not_or] at h
    rw [Memory.scatter, ih _ _ _ h.2, Memory.read_write_other _ _ _ _ h.1]

/-- Where the places of a store are distinct, the `k`-th holds byte `k` of the value. -/
theorem Memory.read_scatter_nth (as : List Nat) : ∀ (m : Memory) (w : Word) (k a : Nat), as.Nodup → as[k]? = some a →
    Memory.read (Memory.scatter m as w) a = w.extractLsb' (8 * k) 8 := by
  induction as with
  | nil => intro m w k a _ h; simp at h
  | cons b as ih =>
    intro m w k a hd h
    rw [List.nodup_cons] at hd
    cases k with
    | zero =>
      simp only [List.getElem?_cons_zero, Option.some.injEq] at h
      subst h
      rw [Memory.scatter, Memory.read_scatter_other _ _ _ _ hd.1, Memory.read_write_same]
      rfl
    | succ k =>
      rw [List.getElem?_cons_succ] at h
      rw [Memory.scatter, ih _ _ _ _ hd.2 h]
      apply BitVec.eq_of_getLsbD_eq
      intro i _
      simp only [BitVec.getLsbD_extractLsb', BitVec.getLsbD_ushiftRight]
      congr 2
      omega

/-- Byte `k` of bytes joined lowest first, zero past the last. -/
theorem joinBytes_byte (bs : List Byte) : ∀ k < 8, (joinBytes bs).extractLsb' (8 * k) 8 = bs.getD k 0 := by
  induction bs with
  | nil => intro k _; simp [joinBytes]
  | cons b bs ih =>
    intro k hk
    apply BitVec.eq_of_getLsbD_eq
    intro i hi
    cases k with
    | zero => simp [joinBytes, hi]; omega
    | succ k =>
      have h := congrArg (fun v : BitVec 8 => v.getLsbD i) (ih k (by omega))
      have h1 : 8 * (k + 1) + i - 8 = 8 * k + i := by omega
      have h2 : ¬8 * (k + 1) + i < 8 := by omega
      have h3 : 8 * (k + 1) + i < 64 := by omega
      have h4 : (b.setWidth 64).getLsbD (8 * (k + 1) + i) = false := by
        rw [BitVec.getLsbD_setWidth, BitVec.getLsbD_of_ge b _ (by omega), Bool.and_false]
      simp only [BitVec.getLsbD_extractLsb', hi, decide_true, Bool.true_and] at h ⊢
      simp only [joinBytes, BitVec.getLsbD_or, BitVec.getLsbD_shiftLeft, h1, h2, h3, h4, h, decide_true, decide_false,
        Bool.not_false, Bool.true_and, Bool.or_false]
      rfl

/-- Truncation before an addition of truncated values is lost in the truncation after it. -/
theorem State.trunc_add_trunc (s : State) (a b : Word) : s.trunc (s.trunc a + b) = s.trunc (a + b) := by
  unfold State.trunc truncTo
  cases s.cfg.xlen
  · simp [BitVec.setWidth_add]
  · rfl

theorem ofNat_succ_add (va : Word) (k : Nat) : va + 1 + BitVec.ofNat 64 k = va + BitVec.ofNat 64 (k + 1) := by
  rw [BitVec.ofNat_add, BitVec.add_assoc, BitVec.add_comm (BitVec.ofNat 64 k)]
  rfl

/-- The first byte of an ordinary access that faults, those before it passing, gives its exception and its address. -/
theorem State.ordinaryBytes_error {s : State} {kind : AccessKind} {p : Priv} {v : Bool} {e : Exc} (n : Nat) :
    ∀ (va : Word) (k : Nat), k < n →
      (∀ j < k, ∃ a, s.ordinaryByte kind p v (if j = 0 then va else s.trunc (va + BitVec.ofNat 64 j)) = .ok a) →
      s.ordinaryByte kind p v (if k = 0 then va else s.trunc (va + BitVec.ofNat 64 k)) = .error e →
      s.ordinaryBytes kind p v va n = .error (e, if k = 0 then va else s.trunc (va + BitVec.ofNat 64 k)) := by
  induction n with
  | zero => intro va k hk; omega
  | succ n ih =>
    intro va k hk hb he
    cases k with
    | zero => simp only [if_true] at he; simp [State.ordinaryBytes, he]
    | succ k =>
      obtain ⟨a, ha⟩ := hb 0 (by omega)
      simp only [if_true] at ha
      have hs : ∀ j, (if j = 0 then s.trunc (va + 1) else s.trunc (s.trunc (va + 1) + BitVec.ofNat 64 j)) =
          s.trunc (va + BitVec.ofNat 64 (j + 1)) := by
        intro j
        have hj : va + 1 + BitVec.ofNat 64 j = va + BitVec.ofNat 64 (j + 1) := by
          exact ofNat_succ_add va j
        cases j with
        | zero => rfl
        | succ j => rw [if_neg (by omega), State.trunc_add_trunc, hj]
      have h := ih (s.trunc (va + 1)) k (by omega)
        (fun j hj => by rw [hs]; simpa using hb (j + 1) (by omega)) (by rw [hs]; simpa using he)
      rw [hs] at h
      simp only [State.ordinaryBytes, ha, h, Nat.succ_ne_zero, if_false]

/-- An ordinary access whose every byte passes answers their places. -/
theorem State.ordinaryBytes_ok {s : State} {kind : AccessKind} {p : Priv} {v : Bool} (n : Nat) :
    ∀ (va : Word) (pa : Nat → Nat),
      (∀ k < n, s.ordinaryByte kind p v (if k = 0 then va else s.trunc (va + BitVec.ofNat 64 k)) = .ok (pa k)) →
      s.ordinaryBytes kind p v va n = .ok ((List.range n).map pa) := by
  induction n with
  | zero => intro va pa _; rfl
  | succ n ih =>
    intro va pa hb
    have ha := hb 0 (by omega)
    simp only [if_true] at ha
    have h := ih (s.trunc (va + 1)) (fun k => pa (k + 1)) (fun k hk => by
      have hk' := hb (k + 1) (by omega)
      rw [if_neg (by omega)] at hk'
      have hj : va + 1 + BitVec.ofNat 64 k = va + BitVec.ofNat 64 (k + 1) := by
        exact ofNat_succ_add va k
      cases k with
      | zero => exact hk'
      | succ k => rw [if_neg (by omega), State.trunc_add_trunc, hj]; exact hk')
    simp only [State.ordinaryBytes, ha, h, List.range_succ_eq_map, List.map_cons, List.map_map]
    rfl

/-! ## The base instructions -/

/-- A load puts a value in its register and goes on, or raises its fault. -/
theorem State.loadTo_cases (s : State) (rd : RegIdx) (va : Word) (k : Nat) (ext : Word → Word) (n : Nat) :
    (∃ w, s.memRead va k = .ok w ∧ s.loadTo rd va k ext n = (s.writeX rd (ext w)).advance n) ∨
    ∃ e a, s.memRead va k = .error (e, a) ∧ s.loadTo rd va k ext n = s.raiseAddr e a := by
  unfold State.loadTo
  cases s.memRead va k with
  | ok w => exact .inl ⟨w, rfl, rfl⟩
  | error f => exact .inr ⟨f.1, f.2, rfl, rfl⟩

/-- A store writes memory and goes on, or raises its fault. -/
theorem State.storeFrom_cases (s : State) (va : Word) (k : Nat) (w : Word) (n : Nat) :
    (∃ as, s.ordinaryBytes .store s.effMode.1 s.effMode.2 va k = .ok as ∧ as.length = k ∧
      s.storeFrom va k w n = ({ s with mem := s.mem.scatter as w } : State).advance n) ∨
    ∃ e a, s.ordinaryBytes .store s.effMode.1 s.effMode.2 va k = .error (e, a) ∧
      s.storeFrom va k w n = s.raiseAddr e a := by
  unfold State.storeFrom State.memWrite
  cases h : s.ordinaryBytes .store s.effMode.1 s.effMode.2 va k with
  | ok as => exact .inl ⟨as, rfl, State.ordinaryBytes_length k h, rfl⟩
  | error f => exact .inr ⟨f.1, f.2, rfl, rfl⟩

/-- A CSR instruction on an environment register raises what its check names, or reads it, writes it if it has a value
to write, and goes on. -/
theorem State.csrEnv_cases (s : State) (c : EnvCsr) (rd : RegIdx) (new : Option Word) (word : BitVec 32) :
    (∃ e, s.envDenied c = some e ∧ s.csrEnv c rd new word = s.raiseInsn e word) ∨
    s.envDenied c = none ∧
      ((new = none ∧ s.csrEnv c rd new word = (s.writeX rd (s.readEnv c)).advance 4) ∨
        ∃ w, new = some w ∧ s.csrEnv c rd new word = ((s.writeEnv c w).writeX rd (s.readEnv c)).advance 4) := by
  unfold State.csrEnv
  cases s.envDenied c with
  | some e => exact .inl ⟨e, rfl, rfl⟩
  | none =>
    cases new with
    | none => exact .inr ⟨rfl, .inl ⟨rfl, rfl⟩⟩
    | some w => exact .inr ⟨rfl, .inr ⟨w, rfl, rfl⟩⟩

/-- `MRET` returns in M-mode and raises elsewhere. -/
theorem State.mret_cases (s : State) :
    (s.priv = .machine ∧ s.mret = s.returnM) ∨
    s.priv ≠ .machine ∧ s.mret = s.raiseInsn .illegalInstruction wordMret := by
  unfold State.mret
  by_cases h : s.priv = .machine
  · exact .inl ⟨h, if_pos h⟩
  · exact .inr ⟨h, if_neg h⟩

/-- `SRET` raises what its check names, or is the return of the current virtualization mode. -/
theorem State.sret_cases (s : State) :
    (∃ e, s.sretDenied = some e ∧ s.sret = s.raiseInsn e wordSret) ∨
    s.sretDenied = none ∧ (s.v = true ∧ s.sret = s.returnVs ∨ s.v = false ∧ s.sret = s.returnS) := by
  unfold State.sret
  cases s.sretDenied with
  | some e => exact .inl ⟨e, rfl, rfl⟩
  | none => cases hv : s.v <;> simp

/-- A branch or jump changes `pc` alone. -/
theorem State.branchEq_frame (s : State) (rs1 rs2 : RegIdx) (off : Word) :
    s.branchEq rs1 rs2 off = { s with pc := (s.branchEq rs1 rs2 off).pc } := by
  unfold State.branchEq
  split <;> rfl

end Sys2Proof.Machine
end

