-- ==== Sys2Proof/Laws/Base.lean ====
section
/-! SUPPORT. The halves and the `SSE` field of an environment register bit by bit, and what the base instructions leave
alone. -/

namespace Sys2Proof.Machine

/-! ## Bits of an environment register -/

/-- Bit `k` of a register with its `SSE` field set to `b`. -/
theorem setSse_getLsbD (r : BitVec 64) (b : Bool) (k : Nat) (hk : k < 64) :
    (setSse r b).getLsbD k = if k = 3 then b else r.getLsbD k := by
  have h8 := (by decide : ∀ i : Fin 64, (8#64).getLsbD i = decide (i.val = 3)) ⟨k, hk⟩
  have h9 := (by decide : ∀ i : Fin 64, (~~~8#64).getLsbD i = decide (i.val ≠ 3)) ⟨k, hk⟩
  simp only at h8 h9
  cases b
  · simp only [setSse, Bool.false_eq_true, if_false, BitVec.getLsbD_and, h9]
    by_cases h : k = 3 <;> simp [h]
  · simp only [setSse, if_true, BitVec.getLsbD_or, h8]
    by_cases h : k = 3 <;> simp [h]

/-- Bit `k` of the low half. -/
theorem lowHalf_getLsbD (r : BitVec 64) (k : Nat) (hk : k < 64) :
    (lowHalf r).getLsbD k = (decide (k < 32) && r.getLsbD k) := by
  have h := (by decide : ∀ i : Fin 64, (0xFFFFFFFF#64).getLsbD i = decide (i.val < 32)) ⟨k, hk⟩
  simp only [lowHalf, BitVec.getLsbD_and]
  rw [Bool.and_comm]
  exact congrArg (fun b : Bool => b && r.getLsbD k) h

/-- Bit `k` of a register whose high half was written. -/
theorem withHighHalf_getLsbD (r : BitVec 64) (w : Word) (k : Nat) (hk : k < 64) :
    (withHighHalf r w).getLsbD k = if k < 32 then r.getLsbD k else w.getLsbD (k - 32) := by
  simp only [withHighHalf, BitVec.getLsbD_or, lowHalf_getLsbD _ _ hk, BitVec.getLsbD_shiftLeft, hk]
  by_cases h : k < 32 <;> simp [h]

/-- Bit `k` of a register whose low half was written. -/
theorem withLowHalf_getLsbD (r : BitVec 64) (w : Word) (k : Nat) (hk : k < 64) :
    (withLowHalf r w).getLsbD k = if k < 32 then w.getLsbD k else r.getLsbD k := by
  have h := (by decide : ∀ i : Fin 64, (~~~0xFFFFFFFF#64).getLsbD i = decide (¬i.val < 32)) ⟨k, hk⟩
  simp only at h
  simp only [withLowHalf, BitVec.getLsbD_or, lowHalf_getLsbD _ _ hk, BitVec.getLsbD_and, h]
  by_cases h : k < 32 <;> simp [h]

/-! ## Base instructions -/

/-- No base instruction writes `ssp`, and none but `sd` and `c.sdsp` writes memory. -/
theorem State.execBase_frame (s : State) (b : BaseInstr) :
    (s.execBase b).ssp = s.ssp ∧
      ((∀ rs2 rs1 imm, b ≠ .sd rs2 rs1 imm) → (∀ rs2 off, b ≠ .cSdsp rs2 off) → (s.execBase b).mem = s.mem) := by
  cases b
  case mret =>
    simp only [State.execBase]
    rcases s.mret_cases with
      ⟨_, h⟩ | ⟨_, h⟩ <;>
      rw [h] <;> simp [State.raiseInsn]
  case sret =>
    simp only [State.execBase]
    rcases s.sret_cases with
      ⟨_, _, h⟩ | ⟨_, ⟨_, h⟩ | ⟨_, h⟩⟩ <;>
      rw [h] <;> simp [State.raiseInsn]
  case csrEnv op imm c rd f =>
    simp only [State.execBase]
    rcases s.csrEnv_cases c rd (op.newValue (s.readEnv c) f (s.csrOperand imm f))
      (BaseInstr.csrEnv op imm c rd f).word with
      ⟨_, _, h⟩ | ⟨_, ⟨_, h⟩ | ⟨_, _, h⟩⟩ <;>
      rw [h] <;> simp [State.raiseInsn]
  case unimp => simp [State.execBase, State.raiseInsn]
  case addi => exact ⟨rfl, fun _ _ => rfl⟩
  case cAddi => exact ⟨rfl, fun _ _ => rfl⟩
  case lw rd rs1 imm =>
    simp only [State.execBase]
    rcases s.loadTo_cases rd (s.trunc (s.readX rs1 + sextImm imm)) 4 sext32 4 with
      ⟨_, _, h⟩ | ⟨_, _, _, h⟩ <;>
      rw [h] <;> simp [State.raiseAddr]
  case ld rd rs1 imm =>
    simp only [State.execBase]
    rcases s.loadTo_cases rd (s.trunc (s.readX rs1 + sextImm imm)) 8 id 4 with
      ⟨_, _, h⟩ | ⟨_, _, _, h⟩ <;>
      rw [h] <;> simp [State.raiseAddr]
  case cLdsp rd off =>
    simp only [State.execBase]
    rcases s.loadTo_cases rd (s.trunc (s.readX 2 + stackOff off)) 8 id 2 with
      ⟨_, _, h⟩ | ⟨_, _, _, h⟩ <;>
      rw [h] <;> simp [State.raiseAddr]
  case sd rs2 rs1 imm =>
    simp only [State.execBase]
    rcases s.storeFrom_cases (s.trunc (s.readX rs1 + sextImm imm)) 8 (s.readX rs2) 4 with
      ⟨_, _, _, h⟩ | ⟨_, _, _, h⟩ <;>
      rw [h] <;> simp [State.raiseAddr]
  case cSdsp rs2 off =>
    simp only [State.execBase]
    rcases s.storeFrom_cases (s.trunc (s.readX 2 + stackOff off)) 8 (s.readX rs2) 2 with
      ⟨_, _, _, h⟩ | ⟨_, _, _, h⟩ <;>
      rw [h] <;> simp [State.raiseAddr]
  case beq rs1 rs2 off =>
    simp only [State.execBase]
    rw [s.branchEq_frame]
    simp
  case ret => exact ⟨rfl, fun _ _ => rfl⟩
  case cJr => exact ⟨rfl, fun _ _ => rfl⟩

end Sys2Proof.Machine
end

