-- ==== Sys2Proof/Laws/PerInstr.lean ====
section
/-! SUPPORT. A statement about every instruction as syntax, one lemma per constructor. -/

namespace Sys2Proof.Laws

/-- An instruction's bytes are as many as its length says, 2 or 4, and the two low bits of its word are `11b` exactly
when it is a 32-bit one (30 R80). -/
def Length.Statement (i : Instr) : Prop :=
  (encode i).length = ilen i ∧ (ilen i = 2 ∨ ilen i = 4) ∧ ((encodeWord i).extractLsb' 0 2 = 0b11 ↔ ilen i = 4)

theorem bytesOfWord_length (n : Nat) : ∀ w : BitVec 32, (bytesOfWord n w).length = n := by
  induction n with
  | zero => intro w; rfl
  | succ n ih => intro w; simp [bytesOfWord, ih]

theorem encode_length (i : Instr) : (encode i).length = ilen i := bytesOfWord_length _ _

/-- The low bits of any word that ends in a major opcode are that opcode's. -/
theorem low_bits_append {n : Nat} (a : BitVec n) (o : BitVec 7) :
    (a ++ o).extractLsb' 0 2 = o.extractLsb' 0 2 := by
  apply BitVec.eq_of_getLsbD_eq
  intro i hi
  have h7 : i < 7 := by omega
  simp [BitVec.getLsbD_append, BitVec.getLsbD_extractLsb', h7]

theorem Length.long (i : Instr) (h4 : ilen i = 4) (hb : (encodeWord i).extractLsb' 0 2 = 0b11) : Length.Statement i :=
  ⟨encode_length i, .inr h4, ⟨fun _ => h4, fun _ => hb⟩⟩

theorem Length.sspushX1 : Length.Statement .sspushX1 := Length.long _ rfl (by decide)
theorem Length.sspushX5 : Length.Statement .sspushX5 := Length.long _ rfl (by decide)
theorem Length.cSspushX1 : Length.Statement .cSspushX1 := ⟨encode_length _, .inl rfl, by decide⟩
theorem Length.sspopchkX1 : Length.Statement .sspopchkX1 := Length.long _ rfl (by decide)
theorem Length.sspopchkX5 : Length.Statement .sspopchkX5 := Length.long _ rfl (by decide)
theorem Length.cSspopchkX5 : Length.Statement .cSspopchkX5 := ⟨encode_length _, .inl rfl, by decide⟩
theorem Length.ssrdp (rd : RegIdx) : Length.Statement (.ssrdp rd) :=
  Length.long _ rfl ((low_bits_append _ opcodeSystem).trans (by decide))
theorem Length.ssamoswapW (rd rs2 rs1 : RegIdx) (aq rl : Bool) : Length.Statement (.ssamoswapW rd rs2 rs1 aq rl) :=
  Length.long _ rfl ((low_bits_append _ opcodeAmo).trans (by decide))
theorem Length.ssamoswapD (rd rs2 rs1 : RegIdx) (aq rl : Bool) : Length.Statement (.ssamoswapD rd rs2 rs1 aq rl) :=
  Length.long _ rfl ((low_bits_append _ opcodeAmo).trans (by decide))
theorem Length.mopRr7 (rd rs1 rs2 : RegIdx) : Length.Statement (.mopRr7 rd rs1 rs2) :=
  Length.long _ rfl ((low_bits_append _ opcodeSystem).trans (by decide))
theorem Length.mopR28 (rd rs1 : RegIdx) : Length.Statement (.mopR28 rd rs1) :=
  Length.long _ rfl ((low_bits_append _ opcodeSystem).trans (by decide))
theorem Length.cMop1 : Length.Statement .cMop1 := ⟨encode_length _, .inl rfl, by decide⟩
theorem Length.cMop5 : Length.Statement .cMop5 := ⟨encode_length _, .inl rfl, by decide⟩
theorem Length.csrrwSsp (rd rs1 : RegIdx) : Length.Statement (.csrrwSsp rd rs1) :=
  Length.long _ rfl ((low_bits_append _ opcodeSystem).trans (by decide))
theorem Length.csrrsSsp (rd rs1 : RegIdx) : Length.Statement (.csrrsSsp rd rs1) :=
  Length.long _ rfl ((low_bits_append _ opcodeSystem).trans (by decide))
theorem Length.csrrcSsp (rd rs1 : RegIdx) : Length.Statement (.csrrcSsp rd rs1) :=
  Length.long _ rfl ((low_bits_append _ opcodeSystem).trans (by decide))
theorem Length.csrrwiSsp (rd uimm : RegIdx) : Length.Statement (.csrrwiSsp rd uimm) :=
  Length.long _ rfl ((low_bits_append _ opcodeSystem).trans (by decide))
theorem Length.csrrsiSsp (rd uimm : RegIdx) : Length.Statement (.csrrsiSsp rd uimm) :=
  Length.long _ rfl ((low_bits_append _ opcodeSystem).trans (by decide))
theorem Length.csrrciSsp (rd uimm : RegIdx) : Length.Statement (.csrrciSsp rd uimm) :=
  Length.long _ rfl ((low_bits_append _ opcodeSystem).trans (by decide))

end Sys2Proof.Laws
end

