-- ==== Sys2Proof/Tests/Slice0.lean ====
section
/-! SUPPORT. The model's own tests: ill-formed terms refused, words written out from 30_encoding.md decoded, one step of
each instruction against 95_test_vectors.md, and for every statement with hypotheses a state that meets them. -/

namespace Sys2Proof.Machine.Tests

open Sys2Proof Sys2Proof.Machine Sys2Proof.Config

/-! ## Well-formedness -/

/-- `SSRDP x0` is no instruction (30 R89); the neighbours of the refused value are. -/
theorem test_ssrdp_x0_ill_formed : WellFormed (.ssrdp 0) = false ∧ WellFormed (.ssrdp 1) = true ∧
    WellFormed (.ssrdp 31) = true := by decide

/-! ## Decoding of words written out bit by bit from the encodings of 30_encoding.md -/

/-- The bytes of a word as they lie in memory. -/
def bytes32 (w : BitVec 32) : List Byte := bytesOfWord 4 w
/-- The bytes of a halfword. -/
def bytes16 (h : BitVec 16) : List Byte := bytesOfWord 2 (h.setWidth 32)

/-- `SSPUSH` (R81, S-ENC-1 and 2): funct7 1100111, rs2 00001 or 00101, rs1 00000, funct3 100, rd 00000, SYSTEM. -/
theorem test_decode_sspush :
    decode true (bytes32 0b1100111_00001_00000_100_00000_1110011) = .ok .sspushX1 [] ∧
    decode true (bytes32 0b1100111_00101_00000_100_00000_1110011) = .ok .sspushX5 [] := by decide

/-- `C.SSPUSH x1`, `C.SSPOPCHK x5` (R84, S-ENC-3 and 6), and `C.MOP.1`, `C.MOP.5` where `xSSE` = 0. -/
theorem test_decode_compressed :
    decode true (bytes16 0b011_0_0_000_1_00000_01) = .ok .cSspushX1 [] ∧
    decode true (bytes16 0b011_0_0_010_1_00000_01) = .ok .cSspopchkX5 [] ∧
    decode false (bytes16 0b011_0_0_000_1_00000_01) = .ok .cMop1 [] ∧
    decode false (bytes16 0b011_0_0_010_1_00000_01) = .ok .cMop5 [] := by decide

/-- `SSPOPCHK` (R82, S-ENC-4 and 5) and `SSRDP` (S-ENC-7). -/
theorem test_decode_sspopchk_ssrdp :
    decode true (bytes32 0b110011011100_00001_100_00000_1110011) = .ok .sspopchkX1 [] ∧
    decode true (bytes32 0b110011011100_00101_100_00000_1110011) = .ok .sspopchkX5 [] ∧
    decode true (bytes32 0b110011011100_00000_100_11111_1110011) = .ok (.ssrdp 31) [] := by decide

/-- `SSAMOSWAP` (R83, V-DEC-16 to 18): funct5 01001, aq, rl, rs2, rs1, funct3, rd, AMO. -/
theorem test_decode_ssamoswap :
    decode true (bytes32 0b01001_0_0_01100_01010_010_01011_0101111) = .ok (.ssamoswapW 11 12 10 false false) [] ∧
    decode true (bytes32 0b01001_1_0_01100_01010_010_01011_0101111) = .ok (.ssamoswapW 11 12 10 true false) [] ∧
    decode true (bytes32 0b01001_0_1_01100_01010_010_01011_0101111) = .ok (.ssamoswapW 11 12 10 false true) [] ∧
    decode true (bytes32 0b01001_1_1_01100_01010_011_01011_0101111) = .ok (.ssamoswapD 11 12 10 true true) [] := by
  decide

/-- May-Be-Operations that are no Zicfiss instruction (R88, R89; V-DEC-3, 4, 5, 8, 9, 12), and V-DEC-10 inactive. -/
theorem test_decode_mop :
    decode true (bytes32 0b1100111_00010_00000_100_00000_1110011) = .ok (.mopRr7 0 0 2) [] ∧
    decode true (bytes32 0b1100111_00001_00000_100_00001_1110011) = .ok (.mopRr7 1 0 1) [] ∧
    decode true (bytes32 0b1100111_00001_00001_100_00000_1110011) = .ok (.mopRr7 0 1 1) [] ∧
    decode true (bytes32 0b110011011100_00010_100_00000_1110011) = .ok (.mopR28 0 2) [] ∧
    decode true (bytes32 0b110011011100_00000_100_00000_1110011) = .ok (.mopR28 0 0) [] ∧
    decode true (bytes32 0b110011011100_00001_100_00001_1110011) = .ok (.mopR28 1 1) [] ∧
    decode false (bytes32 0b110011011100_00000_100_00101_1110011) = .ok (.mopR28 5 0) [] := by decide

/-- The CSR instructions on 0x011 (R95; V-CSR-9 to 14). -/
theorem test_decode_csr :
    decode true (bytes32 0b000000010001_00001_001_00001_1110011) = .ok (.csrrwSsp 1 1) [] ∧
    decode true (bytes32 0b000000010001_00000_010_01010_1110011) = .ok (.csrrsSsp 10 0) [] ∧
    decode true (bytes32 0b000000010001_01010_011_01011_1110011) = .ok (.csrrcSsp 11 10) [] ∧
    decode true (bytes32 0b000000010001_11111_101_01011_1110011) = .ok (.csrrwiSsp 11 31) [] ∧
    decode true (bytes32 0b000000010001_01000_110_01011_1110011) = .ok (.csrrsiSsp 11 8) [] ∧
    decode true (bytes32 0b000000010001_01000_111_01011_1110011) = .ok (.csrrciSsp 11 8) [] := by decide

/-- Neighbours are refused by name: `C.MOP.3` (V-DEC-15), another CSR, another MOP, a reserved AMO width, `ADDI`. -/
theorem test_decode_refuses :
    decode true (bytes16 0x6181) = .reject .otherCompressed ∧
    decode true (bytes32 0x01202573) = .reject .otherSystem ∧
    decode true (bytes32 0xCC104073) = .reject .otherMop ∧
    decode true (bytes32 0x48C505AF) = .reject .otherAmoWidth ∧
    decode true (bytes32 0x08C525AF) = .reject .otherAmo ∧
    decode true (bytes32 0xFF810113) = .reject .otherMajorOpcode ∧
    decode true [0x73, 0x40, 0x10] = .reject .truncated := by decide

/-- The host's question on rows of both lengths. -/
theorem test_decodeTableWord :
    decodeTableWord 16 0x6081 = some .cSspushX1 ∧ decodeTableWord 32 0xCDC2C073 = some .sspopchkX5 ∧
    decodeTableWord 32 0x4EC535AF = some (.ssamoswapD 11 12 10 true true) := by decide

/-! ## The platform of 95_test_vectors.md -/

/-- Every kind of access. -/
def allKinds : List AccessKind := [.fetch, .load, .store, .ssPush, .ssPopChk, .ssAmoSwap]

/-- An identity-mapped 4 KiB page of the table rooted at `satp`. -/
def page (base : Nat) (t : PageType) (u : Bool) : Mapping := ⟨.single, base, 4096, allKinds, .leaf t u Perm.all base⟩

/-- The same in the table rooted at `vsatp`, with G-stage permissions. -/
def vsPage (base : Nat) (t : PageType) (g : Perm) : Mapping := ⟨.vs, base, 4096, allKinds, .leaf t false g base⟩

/-- The machine the vectors stand on: S-mode, `menvcfg.SSE` = 1, code, data, shadow stacks A and B with guard pages,
read-only data. -/
def plat : State :=
  { State.reset with
    pc := 0x80000008
    ssp := 0x80003000
    priv := .supervisor
    menvcfg := 8
    satpMode := .paged
    mTrap := ⟨0, 0, 0, 0x80000801⟩
    mappings := [page 0x80000000 .readExecute false, page 0x80001000 .readWrite false,
      page 0x80002000 .shadowStack false, page 0x80004000 .shadowStack false, page 0x80006000 .readOnly false,
      page 0x80007000 .executeOnly false, page 0x80008000 .readWriteExecute false,
      page 0x80009000 .writeExecute false, page 0x8000A000 .shadowStack true] }

/-- The platform as an RV32 machine. -/
def plat32 : State := { plat with cfg := { recommended with xlen := .rv32, sspBit2RoZero := false } }

/-- A machine with the hypervisor extension, in VS-mode with both enables set, its shadow stack writable in the second
stage on one page and read-only on the next. -/
def guest : State :=
  { plat with
    cfg := { recommended with hasH := true }
    v := true
    henvcfg := 8
    vsatpMode := .paged
    hgatpMode := .paged
    mappings := [vsPage 0x80000000 .readExecute Perm.all, vsPage 0x80002000 .shadowStack ⟨true, true, false⟩,
      vsPage 0x80004000 .shadowStack ⟨true, false, false⟩] }

/-- The state a next outcome holds. -/
def after (o : Host.Outcome State Fault Refusal) (d : State) : State :=
  match o with
  | .next t => t
  | .fault _ => d
  | .refused _ => d

/-- A doubleword in memory. -/
def mem64 (s : State) (a : Nat) : Word := Memory.load s.mem a 8

/-- The state with a doubleword in memory. -/
def put64 (s : State) (a : Nat) (w : Word) : State := { s with mem := s.mem.store a 8 w }

/-! ## One step of each instruction -/

/-- V-PUSH-1. -/
theorem test_sspush_x1 :
    let t := after (exec .sspushX1 (plat.writeX 1 0x80000100)) State.reset
    mem64 t 0x80002FF8 = 0x80000100 ∧ t.ssp = 0x80002FF8 ∧ t.pc = 0x8000000C ∧ t.readX 1 = 0x80000100 := by decide

/-- V-PUSH-7: the guard page below stack B. -/
theorem test_sspush_x1_overflow :
    let t := after (exec .sspushX1 { plat with ssp := 0x80004000 }) State.reset
    t.mTrap = ⟨0x80000008, 15, 0x80003FF8, 0x80000801⟩ ∧ t.ssp = 0x80004000 ∧ t.pc = 0x80000800 ∧
      t.priv = .machine ∧ t.mstatus.mpp = .supervisor := by decide

/-- V-PUSH-3: a word entry on RV32. -/
theorem test_sspush_x5_rv32 :
    let t := after (exec .sspushX5 (plat32.writeX 5 0xDEADBEEC)) State.reset
    Memory.load t.mem 0x80002FFC 4 = 0xDEADBEEC ∧ t.ssp = 0x80002FFC := by decide

/-- V-PUSH-8: a read-only page is a page fault. -/
theorem test_sspush_x5_read_only :
    (after (exec .sspushX5 { plat with ssp := 0x80006008 }) State.reset).mTrap =
      ⟨0x80000008, 15, 0x80006000, 0x80000801⟩ := by decide

/-- V-PUSH-2. -/
theorem test_c_sspush_x1 :
    let t := after (exec .cSspushX1 (plat.writeX 1 0x80000100)) State.reset
    mem64 t 0x80002FF8 = 0x80000100 ∧ t.ssp = 0x80002FF8 ∧ t.pc = 0x8000000A := by decide

/-- V-PUSH-18: a read-only second stage is a store/AMO guest-page fault. -/
theorem test_c_sspush_x1_guest :
    let t := after (exec .cSspushX1 { guest with ssp := 0x80005000 }) State.reset
    t.mTrap.cause = 23 ∧ t.mTrap.tval = 0x80004FF8 ∧ t.mstatus.mpv = true ∧ t.v = false := by decide

/-- V-POP-1. -/
theorem test_sspopchk_x1 :
    let t := after (exec .sspopchkX1 ((put64 { plat with ssp := 0x80002FF8 } 0x80002FF8 0x80000100).writeX 1 0x80000100))
      State.reset
    t.ssp = 0x80003000 ∧ t.pc = 0x8000000C ∧ t.readX 1 = 0x80000100 := by decide

/-- V-POP-3: all 64 bits are compared. -/
theorem test_sspopchk_x1_high_bit :
    let t := after (exec .sspopchkX1
      ((put64 { plat with ssp := 0x80002FF8 } 0x80002FF8 0x80000100).writeX 1 0x8000000080000100)) State.reset
    t.mTrap = ⟨0x80000008, 18, 3, 0x80000801⟩ ∧ t.ssp = 0x80002FF8 := by decide

/-- V-EXC-1: a mismatch in U-mode, delegated to S-mode. -/
theorem test_sspopchk_x5_delegated :
    let t := after (exec .sspopchkX5 ((put64 { plat with
      priv := .user, senvcfg := 8, medeleg := 0x40000, sTrap := ⟨0, 0, 0, 0x80000400⟩, ssp := 0x8000A000,
      mstatus := { plat.mstatus with sie := true } } 0x8000A000 0x10400).writeX 5 0x10404)) State.reset
    t.sTrap = ⟨0x80000008, 18, 3, 0x80000400⟩ ∧ t.mstatus.spp = false ∧ t.mstatus.spie = true ∧
      t.mstatus.sie = false ∧ t.priv = .supervisor ∧ t.pc = 0x80000400 ∧ t.ssp = 0x8000A000 ∧ t.xSSE = true := by
  decide

/-- V-POP-6: a pop from the guard page is store-typed. -/
theorem test_sspopchk_x5_underflow :
    (after (exec .sspopchkX5 plat) State.reset).mTrap = ⟨0x80000008, 15, 0x80003000, 0x80000801⟩ := by decide

/-- V-POP-4. -/
theorem test_c_sspopchk_x5 :
    let t := after (exec .cSspopchkX5 ((put64 { plat with ssp := 0x80002FF8 } 0x80002FF8 0x80000100).writeX 5 0x80000100))
      State.reset
    t.ssp = 0x80003000 ∧ t.pc = 0x8000000A := by decide

/-- V-POP-8: a wrong page is reported, never the mismatch. -/
theorem test_c_sspopchk_x5_wrong_page :
    (after (exec .cSspopchkX5 (({ plat with ssp := 0x80001000 } : State).writeX 5 7)) State.reset).mTrap =
      ⟨0x80000008, 7, 0x80001000, 0x80000801⟩ := by decide

/-- P3 runs A and B: `ssp` where active, 0 where not. -/
theorem test_ssrdp :
    (after (exec (.ssrdp 5) plat) State.reset).readX 5 = 0x80003000 ∧
    (after (exec (.ssrdp 5) (({ plat with menvcfg := 0 } : State).writeX 5 0x55)) State.reset).readX 5 = 0 := by decide

/-- V-AMO-3: the word is sign-extended, and only its four bytes change. -/
theorem test_ssamoswap_w :
    let t := after (exec (.ssamoswapW 11 12 10 false false)
      (((put64 plat 0x80002FF8 0xAAAAAAAA80000FF8).writeX 10 0x80002FF8).writeX 12 0x123456789)) State.reset
    t.readX 11 = 0xFFFFFFFF80000FF8 ∧ mem64 t 0x80002FF8 = 0xAAAAAAAA23456789 ∧ t.pc = 0x8000000C := by decide

/-- V-AMO-8: a read-write page is an access fault and `rd` is unchanged. -/
theorem test_ssamoswap_w_wrong_page :
    let t := after (exec (.ssamoswapW 11 12 10 false false) ((plat.writeX 10 0x80001000).writeX 11 7)) State.reset
    t.mTrap = ⟨0x80000008, 7, 0x80001000, 0x80000801⟩ ∧ t.readX 11 = 7 := by decide

/-- V-AMO-4 and 5: the operands are read before `rd` is written. -/
theorem test_ssamoswap_d_same_registers :
    let s := ((put64 plat 0x80002FF8 0x11).writeX 10 0x80002FF8).writeX 11 0x22
    let t := after (exec (.ssamoswapD 10 11 10 false false) s) State.reset
    let u := after (exec (.ssamoswapD 11 11 10 false false) s) State.reset
    mem64 t 0x80002FF8 = 0x22 ∧ t.readX 10 = 0x11 ∧ mem64 u 0x80002FF8 = 0x22 ∧ u.readX 11 = 0x11 := by decide

/-- V-AMO-E and V-DEC-19: denied in U-mode without `senvcfg.SSE`, and illegal on RV32, with the word as trap value. -/
theorem test_ssamoswap_d_denied :
    (after (exec (.ssamoswapD 1 0 10 false false) { plat with priv := .user }) State.reset).mTrap =
      ⟨0x80000008, 2, 0x480530AF, 0x80000801⟩ ∧
    (after (exec (.ssamoswapD 1 0 10 false false) plat32) State.reset).mTrap =
      ⟨0x80000008, 2, 0x480530AF, 0x80000801⟩ := by decide

/-- V-MOP-3 and 4. -/
theorem test_mops :
    (after (exec (.mopRr7 1 0 1) (plat.writeX 1 0x99)) State.reset).readX 1 = 0 ∧
    (after (exec (.mopR28 1 1) (plat.writeX 1 0x99)) State.reset).readX 1 = 0 := by decide

/-- V-MOP-1 and 2. -/
theorem test_c_mops :
    exec .cMop1 plat = .next { plat with pc := 0x8000000A } ∧ exec .cMop5 plat = .next { plat with pc := 0x8000000A } :=
  ⟨rfl, rfl⟩

/-- V-CSR-9: the register is read before it is written. -/
theorem test_csrrw :
    let t := after (exec (.csrrwSsp 1 1) (({ plat with ssp := 0x80002FF8 } : State).writeX 1 0x80005000)) State.reset
    t.ssp = 0x80005000 ∧ t.readX 1 = 0x80002FF8 := by decide

/-- V-CSR-10, and V-CSR-1: M-mode may read `ssp` whatever the enables. -/
theorem test_csrrs :
    let t := after (exec (.csrrsSsp 11 10) (({ plat with ssp := 0x80002F00 } : State).writeX 10 0xF8)) State.reset
    let u := after (exec (.csrrsSsp 6 0) { State.reset with ssp := 0x80002FF8 }) State.reset
    t.ssp = 0x80002FF8 ∧ t.readX 11 = 0x80002F00 ∧ u.readX 6 = 0x80002FF8 := by decide

/-- V-CSR-11, and V-CSR-8: VU-mode without `menvcfg.SSE` is illegal, not virtual. -/
theorem test_csrrc :
    let t := after (exec (.csrrcSsp 11 10) (({ plat with ssp := 0x80002FF8 } : State).writeX 10 0xFF8)) State.reset
    let u := after (exec (.csrrcSsp 6 0) { guest with priv := .user, menvcfg := 0, senvcfg := 8 }) State.reset
    t.ssp = 0x80002000 ∧ t.readX 11 = 0x80002FF8 ∧ u.mTrap.cause = 2 := by decide

/-- V-CSR-12 on the two kinds of machine. -/
theorem test_csrrwi :
    (after (exec (.csrrwiSsp 11 31) plat) State.reset).ssp = 0x18 ∧
    (after (exec (.csrrwiSsp 11 31) plat32) State.reset).ssp = 0x1C := by decide

/-- V-CSR-13, and V-CSR-7: VU-mode without `senvcfg.SSE` is a virtual-instruction exception. -/
theorem test_csrrsi :
    (after (exec (.csrrsiSsp 11 8) { plat with ssp := 0x80002FF0 }) State.reset).ssp = 0x80002FF8 ∧
    (after (exec (.csrrsiSsp 11 8) { guest with priv := .user }) State.reset).mTrap.cause = 22 := by decide

/-- V-CSR-14. -/
theorem test_csrrci : (after (exec (.csrrciSsp 11 8) { plat with ssp := 0x80002FF8 }) State.reset).ssp = 0x80002FF0 := by
  decide

/-- V-MEM-9, 10 and 11: an ordinary store to, and ordinary loads from, an SS page. -/
theorem test_ordinary_accesses :
    let s := put64 plat 0x80002FF8 0x80000100
    s.memRead 0x80002FF8 8 = .ok 0x80000100 ∧ s.memRead 0x80002FFC 4 = .ok 0 ∧
    s.memWrite 0x80002FF8 8 5 = .error (.storeAccessFault, 0x80002FF8) := ⟨by rfl, by rfl, by rfl⟩

/-- A page that the second stage maps `010b` is reserved there (R49, 93 U2): an ordinary store, though it asks for write
permission alone, is a store/AMO guest-page fault, with either stage of translation before it. -/
theorem test_second_stage_reserves_010b :
    let s := { guest with mappings := [vsPage 0x80001000 .readWrite ⟨false, true, false⟩,
      ⟨.gOnly, 0x80003000, 4096, allKinds, .leaf .readWrite false ⟨false, true, true⟩ 0x80003000⟩] }
    s.memWrite 0x80001000 1 5 = .error (.storeGuestPageFault, 0x80001000) ∧
    ({ s with vsatpMode := .bare } : State).memWrite 0x80003000 1 5 = .error (.storeGuestPageFault, 0x80003000) :=
  ⟨by rfl, by rfl⟩

/-- V-MEM-14 and its neighbours (93 U1): through a leaf `010b` with `menvcfg.SSE` = 0, a load, a store and a fetch raise
the page fault of their own type. -/
theorem test_reserved_encoding_page_faults :
    let s := { plat with menvcfg := 0, pc := 0x80002000 }
    s.memRead 0x80002000 8 = .error (.loadPageFault, 0x80002000) ∧
    s.memWrite 0x80002000 8 5 = .error (.storePageFault, 0x80002000) ∧
    s.fetch = .error (.instrPageFault, 0x80002000) := ⟨by rfl, by rfl, by rfl⟩

/-- The words of 95 section 5, from its own programs: `addi`, `sd`, `ld`, `lw`, `beqz`, `ret`, `unimp`, `c.addi`, `c.sdsp`,
`c.ldsp`, `c.jr`. -/
theorem test_decode_base :
    decodeBase .rv64 (bytes32 0xFF810113) = some (.addi 2 2 0xFF8) ∧
    decodeBase .rv64 (bytes32 0x00113023) = some (.sd 1 2 0) ∧
    decodeBase .rv64 (bytes32 0x00013083) = some (.ld 1 2 0) ∧
    decodeBase .rv64 (bytes32 0x00452583) = some (.lw 11 10 4) ∧
    decodeBase .rv64 (bytes32 0x00028463) = some (.beq 5 0 4) ∧
    decodeBase .rv64 (bytes32 0x00A08463) = some (.beq 1 10 4) ∧
    decodeBase .rv64 (bytes32 0x00008067) = some .ret ∧
    decodeBase .rv64 (bytes32 0xC0001073) = some .unimp ∧
    decodeBase .rv64 (bytes16 0x1161) = some (.cAddi 2 0x38) ∧
    decodeBase .rv64 (bytes16 0xE006) = some (.cSdsp 1 0) ∧
    decodeBase .rv64 (bytes16 0x6282) = some (.cLdsp 5 0) ∧
    decodeBase .rv64 (bytes16 0x0121) = some (.cAddi 2 8) ∧
    decodeBase .rv64 (bytes16 0x8282) = some (.cJr 5) ∧
    decodeBase .rv32 (bytes16 0x6282) = none ∧
    decodeBase .rv64 (bytes16 0x6181) = none := by decide

/-- CSR instructions on the environment registers (R95, 92 D7): `csrrw x1, menvcfg, x2` and `csrrci x0, henvcfg, 8`. -/
theorem test_decode_env :
    decodeBase .rv64 (bytes32 0b001100001010_00010_001_00001_1110011) = some (.csrEnv .rw false .menvcfg 1 2) ∧
    decodeBase .rv64 (bytes32 0b011000001010_01000_111_00000_1110011) = some (.csrEnv .rc true .henvcfg 0 8) := by decide

/-- `csrrsi x5, menvcfg, 8` in M-mode activates S-mode (R18) and reads the old value; in S-mode it is illegal (92 D7). -/
theorem test_csr_menvcfg :
    let t := after (step (State.reset.withFetchWord 32 0x30A462F3)) plat
    let u := after (step (plat.withFetchWord 32 0x30A462F3)) State.reset
    t.menvcfg = 8 ∧ t.readX 5 = 0 ∧ t.pc = 0x80000004 ∧ u.mTrap = ⟨0x80000008, 2, 0x30A462F3, 0x80000801⟩ :=
  ⟨by rfl, by rfl, by rfl, by rfl⟩

/-- `csrrw x5, menvcfgh, x6` on RV32 (92 D7) writes bits 63:32 and reads their old value. -/
theorem test_csr_menvcfgh :
    let s := (({ State.reset with
      cfg := { recommended with xlen := .rv32, sspBit2RoZero := false }, menvcfg := 0x1200000008 } : State).writeX 6 0x34)
    let t := after (step (s.withFetchWord 32 0x31A312F3)) plat
    t.menvcfg = 0x3400000008 ∧ t.readX 5 = 0x12 := ⟨by rfl, by rfl⟩

/-- `mret` to S-mode, and `sret` from there to U-mode (R171). -/
theorem test_returns :
    let s := { State.reset with
      mTrap := ⟨0x80000008, 18, 3, 0⟩, mstatus := { State.reset.mstatus with mpp := .supervisor, mpie := true } }
    let t := after (step (s.withFetchWord 32 0x30200073)) plat
    let u := after (step (({ plat with sTrap := ⟨0x10400, 18, 3, 0⟩ } : State).withFetchWord 32 0x10200073)) State.reset
    (t.pc = 0x80000008 ∧ t.priv = .supervisor ∧ t.mstatus.mie = true ∧ t.mstatus.mpp = .user) ∧
    u.pc = 0x10400 ∧ u.priv = .user := by decide

/-- P1's `sd ra,0(sp)` on a data page, and on an SS page, where it is an access fault with the address (R59). -/
theorem test_step_sd :
    let s := (({ plat with pc := 0x80000000 } : State).writeX 1 0x80000100)
    let t := after (step ((s.writeX 2 0x80001F00).withFetchWord 32 0x00113023)) State.reset
    let u := after (step ((s.writeX 2 0x80002F00).withFetchWord 32 0x00113023)) State.reset
    (mem64 t 0x80001F00 = 0x80000100 ∧ t.pc = 0x80000004) ∧
    u.mTrap = ⟨0x80000000, 7, 0x80002F00, 0x80000801⟩ := by decide

/-- `beqz t0,8` taken and not taken, and `ret`. -/
theorem test_step_jumps :
    (after (step (plat.withFetchWord 32 0x00028463)) State.reset).pc = 0x80000010 ∧
    (after (step ((plat.writeX 5 1).withFetchWord 32 0x00028463)) State.reset).pc = 0x8000000C ∧
    (after (step ((plat.writeX 1 0x80000101).withFetchWord 32 0x00008067)) State.reset).pc = 0x80000100 := by decide

/-- The word placed where reset fetches is the one the first step runs: `csrr t1,ssp`, and the compressed MOP. -/
theorem test_withFetchWord :
    (after (step (State.reset.withFetchWord 32 0x01102373)) plat).pc = 0x80000004 ∧
    (after (step (State.reset.withFetchWord 16 0x6081)) plat).pc = 0x80000002 := by decide

/-! ## Witnesses: a state and operands that meet the hypotheses of each statement, clause by clause -/

/-- Every instruction, at the ends of its operands' ranges, with a setting of `xSSE` that gives its word that meaning. -/
theorem witness_DecodeInvertsEncode :
    ∀ p ∈ [(Instr.sspushX1, true), (.sspushX5, true), (.cSspushX1, true), (.sspopchkX1, true), (.sspopchkX5, true),
      (.cSspopchkX5, true), (.ssrdp 1, true), (.ssrdp 31, true), (.ssamoswapW 31 0 31 true false, false),
      (.ssamoswapD 0 31 0 false true, true), (.mopRr7 0 0 1, false), (.mopRr7 31 31 31, true), (.mopR28 0 0, true),
      (.mopR28 1 0, false), (.cMop1, false), (.cMop5, false), (.csrrwSsp 0 31, true), (.csrrsSsp 31 0, false),
      (.csrrcSsp 0 0, true), (.csrrwiSsp 0 31, false), (.csrrsiSsp 31 31, true), (.csrrciSsp 31 0, true)],
      WellFormed p.1 = true ∧ ReadsUnder p.2 p.1 = true := by decide

theorem witness_EncodeInvertsDecode :
    decode true [0x81, 0x62, 0x00] = .ok .cSspopchkX5 [0x00] ∧
    decode false [0xF3, 0xCF, 0xCF, 0xCD] = .ok (.mopR28 31 31) [] := by decide

theorem witness_InactiveReadingsAgree :
    State.reset.xSSE = false ∧ decode true [0xF3, 0x42, 0xC0, 0xCD] = .ok (.ssrdp 5) [] ∧
    decode false [0xF3, 0x42, 0xC0, 0xCD] = .ok (.mopR28 5 0) [] := by decide

/-- A decoded instruction, a fetch from an unmapped and from a data page, a base instruction, and a word outside the
spec. -/
theorem witness_StepRunsTheDecodedInstruction :
    (plat.withFetchWord 32 0xCE104073).fetch = .ok [0x73, 0x40, 0x10, 0xCE] ∧
    decode (plat.withFetchWord 32 0xCE104073).xSSE [0x73, 0x40, 0x10, 0xCE] = .ok .sspushX1 [] ∧
    ({ plat with pc := 0x80003000 } : State).fetch = .error (.instrPageFault, 0x80003000) ∧
    ({ plat with pc := 0x80001000 } : State).fetch = .error (.instrPageFault, 0x80001000) ∧
    (plat.withFetchWord 16 0x1161).fetch = .ok [0x61, 0x11] ∧
    decode (plat.withFetchWord 16 0x1161).xSSE [0x61, 0x11] = .reject .otherCompressed ∧
    decodeBase (plat.withFetchWord 16 0x1161).cfg.xlen [0x61, 0x11] = some (.cAddi 2 0x38) ∧
    (plat.withFetchWord 16 0x6181).fetch = .ok [0x81, 0x61] ∧
    decode (plat.withFetchWord 16 0x6181).xSSE [0x81, 0x61] = .reject .otherCompressed ∧
    decodeBase (plat.withFetchWord 16 0x6181).cfg.xlen [0x81, 0x61] = none := by
  refine ⟨?_, ?_, ?_, ?_, ?_, ?_, ?_, ?_, ?_, ?_⟩ <;> rfl

/-- The last four bytes of the address space hold an instruction, and the first two. -/
theorem witness_StepRunsTheInstructionInMemory :
    let s := ({ State.reset with pc := 0xFFFFFFFFFFFFFFFC } : State).withFetchWord 32 0x01102373
    let u := ({ State.reset with pc := 0 } : State).withFetchWord 16 0x6081
    (s.priv = .machine ∧ WellFormed (.csrrsSsp 6 0) = true ∧ ReadsUnder false (.csrrsSsp 6 0) = true ∧
      s.pc.toNat + ilen (.csrrsSsp 6 0) ≤ 2 ^ xlenBits s.cfg.xlen ∧
      (∀ k < ilen (.csrrsSsp 6 0), (pmpAt s.pmp .machine (s.pc.toNat + k)).x = true) ∧
      ∀ k < ilen (.csrrsSsp 6 0), (encode (.csrrsSsp 6 0))[k]? = some (Memory.read s.mem (s.pc.toNat + k))) ∧
    u.priv = .machine ∧ WellFormed .cMop1 = true ∧ ReadsUnder false .cMop1 = true ∧
      u.pc.toNat + ilen .cMop1 ≤ 2 ^ xlenBits u.cfg.xlen ∧
      (∀ k < ilen .cMop1, (pmpAt u.pmp .machine (u.pc.toNat + k)).x = true) ∧
      ∀ k < ilen .cMop1, (encode .cMop1)[k]? = some (Memory.read u.mem (u.pc.toNat + k)) := by decide

/-- The leaf of the first byte of stack A, for an access of `n` bytes. -/
def leafA (s : State) (n : Nat) : Leaf := s.leafAt .shadowStack false none 0x80002000 n s.priv

/-- Code on the page below stack A, the first half of a 32-bit instruction at its end. -/
def codeBelowStack : State :=
  { plat with
    mappings := [page 0x80001000 .readExecute false, page 0x80002000 .shadowStack false]
    mem := [(0x80001FFD, 0x73), (0x80001FFE, 0x73), (0x80001FFF, 0x40)] }

/-- The page met at the first byte, the third and the fourth, the bytes before it on the code page. -/
theorem witness_FetchFromShadowStackPageFaults :
    ∀ p ∈ [(0, 0x80002000#64), (2, 0x80001FFE#64), (3, 0x80001FFD#64)],
      let s := { codeBelowStack with pc := p.2 }
      p.1 < 4 ∧ s.priv ≠ .machine ∧ s.isBare s.v = false ∧
      (∀ j < p.1, s.ordinaryByte .fetch s.priv s.v (s.byteAddr s.pc j) = .ok (p.2.toNat + j)) ∧
      (2 ≤ p.1 → isLong (halfOfBytes (Memory.read s.mem (p.2.toNat + 0)) (Memory.read s.mem (p.2.toNat + 1))) = true) ∧
      s.translate .fetch (s.byteAddr s.pc p.1) 1 s.priv s.v = .leaf (leafA s 1) ∧
      (leafA s 1).page = .shadowStack := by
  simp only [List.forall_mem_cons, List.not_mem_nil, false_imp_iff, implies_true, and_true]
  refine ⟨⟨by decide, by decide, by decide, nofun, by decide, by decide, by decide⟩,
    ⟨by decide, by decide, by decide, ?_, by decide, by decide, by decide⟩,
    ⟨by decide, by decide, by decide, ?_, by decide, by decide, by decide⟩⟩ <;>
    (intro j hj; interval_cases j <;> rfl)

/-- The five modes and a machine without S-mode. -/
theorem witness_XsseByModeAndStoredBits :
    State.reset.priv = .machine ∧ ({ plat with cfg := { recommended with hasS := false } } : State).cfg.hasS = false ∧
    plat.cfg.hasS = true ∧ guest.cfg.hasS = true ∧
    (plat.priv = .supervisor ∧ plat.v = false) ∧ (guest.priv = .supervisor ∧ guest.v = true) ∧
    (({ plat with priv := .user } : State).priv = .user ∧ ({ plat with priv := .user } : State).v = false) ∧
    ({ guest with priv := .user } : State).priv = .user ∧ ({ guest with priv := .user } : State).v = true := by decide

/-- A machine with S-mode and one without, the bits beside `SSE` and the last one. -/
theorem witness_CsrReadsShowTheGatedSse :
    plat.cfg.hasS = true ∧ ({ plat with cfg := { recommended with hasS := false } } : State).cfg.hasS = false ∧
    (2 ≠ 3 ∧ 2 < xlenBits plat.cfg.xlen) ∧ (4 ≠ 3 ∧ 4 < xlenBits plat.cfg.xlen) ∧
    63 ≠ 3 ∧ 63 < xlenBits plat.cfg.xlen := by decide

/-- Each gate closed, and each open. -/
theorem witness_GatedSseIsReadOnly :
    State.reset.menvcfgSse = false ∧
    (({ guest with henvcfg := 0 } : State).v = true ∧ ({ guest with henvcfg := 0 } : State).henvcfgSse = false) ∧
    guest.menvcfgSse = true ∧ (plat.v = false ∧ plat.menvcfgSse = true) ∧ (guest.v = true ∧ guest.henvcfgSse = true) ∧ 0 ≠ 3 ∧ 0 < xlenBits plat.cfg.xlen := by
  decide

/-- Each register accessed and denied, a form that writes and one that does not, and `SSE` set, set again, and clear. -/
theorem witness_EnvironmentWritesByMode :
    let s := { guest with priv := .machine, v := false, menvcfg := 0 }
    let r := { State.reset with cfg := { recommended with xlen := .rv32, sspBit2RoZero := false, hasH := true } }
    (s.envDenied .menvcfg = none ∧ s.envDenied .henvcfg = none ∧ s.envDenied .senvcfg = none ∧
      r.envDenied .menvcfgh = none ∧ r.envDenied .henvcfgh = none) ∧
    (guest.cfg.hasH = true ∧ guest.priv = .supervisor ∧ guest.v = true ∧
      guest.envDenied .henvcfg = some .virtualInstruction) ∧
    plat.envDenied .menvcfg = some .illegalInstruction ∧
    (envWritten s .rw true .menvcfg 8 = some 8 ∧ envWritten s .rs false .menvcfg 0 = none ∧
      envWritten s .rc true .henvcfg 31 = some 0) ∧
    (32 < 64 ∧ xlenBits r.cfg.xlen ≤ 32) ∧
    s.cfg.hasS = true ∧ (8 : Word).getLsbD 3 = true ∧ (0 : Word).getLsbD 3 = false ∧ plat.menvcfg.getLsbD 3 = true := by
  decide

theorem witness_RegisterFileReadsBack : (31 : RegIdx) ≠ 0 ∧ (0 : RegIdx) ≠ 31 ∧ (1 : RegIdx) ≠ 0 := by decide

/-- An access that passes: the first entry of stack A, for each operation; and M-mode with `MPRV` set. -/
theorem witness_ShadowStackAccessConditions :
    (plat.ssFaults .push 0x80002000 8 = [] ∧ plat.ssFaults .popChk 0x80002FF8 8 = [] ∧
      plat.ssFaults .amoSwap 0x80002FFC 4 = []) ∧
    (plat.priv ≠ .machine ∧ State.reset.mstatus.mprv = false) ∧
    let s := { State.reset with mstatus := { State.reset.mstatus with mprv := true } }
    s.priv = .machine ∧ s.mstatus.mprv = true := by decide

/-- Two faults at once: a misaligned access to a read-only page, and the unlisted `110b`. -/
theorem witness_FaultsFollowThePseudocode :
    plat.cfg.faultReport = .firstInOrder ∧
    plat.ssFaults .push 0x80006004 8 = [.storeAccessFault, .storePageFault] ∧
    plat.ssFaults .amoSwap 0x80009000 4 = [.storePageFault, .storeAccessFault] := by decide

theorem witness_ReportedFaultApplies :
    plat.ssFaults .popChk 0x80002000 8 = [] ∧ plat.ssFaults .popChk 0x80001000 8 = [.storeAccessFault] ∧
    ({ plat with cfg := { recommended with faultReport := .anyApplicable } } : State).ssFaults .popChk 0x80009004 8 =
      [.storeAccessFault, .storePageFault, .storeAccessFault] := by decide

/-- Each kind of fault, the misaligned swap's own and an implicit read's among them. -/
theorem witness_ShadowStackFaultsAreStoreTyped :
    Exc.storeAccessFault ∈ plat.ssFaults .push 0x80001000 8 ∧
    Exc.storePageFault ∈ plat.ssFaults .popChk 0x80003000 8 ∧
    Exc.storeGuestPageFault ∈ guest.ssFaults .push 0x80004000 8 ∧
    Exc.storeMisaligned ∈ ({ plat with cfg := { recommended with amoMisaligned := .addressMisaligned } } : State).ssFaults
      .amoSwap 0x80002001 4 ∧
    Exc.loadGuestPageFault ∈ ({ guest with mappings := [⟨.vs, 0, 4096, allKinds, .fault .implicitGuestRead⟩] } : State).ssFaults
      .push 0 8 := by decide

/-- An implicit read and an implicit write that the second stage refuses, for an aligned access below M-mode. -/
theorem witness_ShadowStackFaultsAreStoreTyped_implicit :
    let s := { guest with mappings := [⟨.vs, 0, 8, allKinds, .fault .implicitGuestRead⟩,
      ⟨.vs, 8, 8, allKinds, .fault .implicitGuestWrite⟩] }
    (0 : Word).toNat % 8 = 0 ∧ (8 : Word).toNat % 8 = 0 ∧ s.effMode.1 ≠ .machine ∧ s.isBare s.effMode.2 = false ∧
    s.translate .ssPush 0 8 s.effMode.1 s.effMode.2 = .fault .implicitGuestRead ∧
    s.translate .ssPopChk 8 8 s.effMode.1 s.effMode.2 = .fault .implicitGuestWrite := by decide

/-- What `LeafTypeDecidesTheFault` asks of a leaf. -/
abbrev LeafPasses (s : State) (op : SsOp) (va : Word) (n : Nat) (l : Leaf) (t : PageType) : Prop :=
  va.toNat % n = 0 ∧ s.effMode.1 ≠ .machine ∧ s.isBare s.effMode.2 = false ∧
    s.translate op.kind va n s.effMode.1 s.effMode.2 = .leaf l ∧ s.userBitOk s.effMode.1 s.effMode.2 l.u = true ∧
    l.g = none ∧ l.pmp.r = true ∧ l.pmp.w = true ∧ l.idempotent = true ∧ l.amoswap = true ∧ l.page = t

/-- Each leaf type, at the first entry of its page. -/
theorem witness_LeafTypeDecidesTheFault :
    LeafPasses plat .push 0x80002000 8 (plat.leafAt .shadowStack false none 0x80002000 8 .supervisor) .shadowStack ∧
    LeafPasses plat .push 0x80006000 8 (plat.leafAt .readOnly false none 0x80006000 8 .supervisor) .readOnly ∧
    LeafPasses plat .push 0x80001000 8 (plat.leafAt .readWrite false none 0x80001000 8 .supervisor) .readWrite ∧
    LeafPasses plat .popChk 0x80007000 8 (plat.leafAt .executeOnly false none 0x80007000 8 .supervisor) .executeOnly ∧
    LeafPasses plat .popChk 0x80000000 8 (plat.leafAt .readExecute false none 0x80000000 8 .supervisor) .readExecute ∧
    LeafPasses plat .amoSwap 0x80008000 4 (plat.leafAt .readWriteExecute false none 0x80008000 4 .supervisor)
      .readWriteExecute ∧
    LeafPasses plat .amoSwap 0x80009000 4 (plat.leafAt .writeExecute false none 0x80009000 4 .supervisor)
      .writeExecute :=
  ⟨by decide, by decide, by decide, by decide, by decide, by decide, by decide⟩

/-- An address in no mapping, a failed walk, a leaf of another type, and the SS encoding defined and reserved, in both
tables. -/
theorem witness_ShadowStackEncodingIsGated :
    let f := { guest with mappings := [⟨.vs, 0, 4096, allKinds, .fault .implicitGuestRead⟩] }
    findMapping plat.mappings .single .load 0x80003000 = none ∧
    (findMapping f.mappings .vs .ssPush 4095 = some ⟨.vs, 0, 4096, allKinds, .fault .implicitGuestRead⟩) ∧
    (findMapping plat.mappings .single .load 0x80001FFF = some (page 0x80001000 .readWrite false) ∧
      (page 0x80001000 .readWrite false).entry = .leaf .readWrite false Perm.all 0x80001000) ∧
    (findMapping plat.mappings .single .load 0x80002000 = some (page 0x80002000 .shadowStack false) ∧
      (page 0x80002000 .shadowStack false).entry = .leaf .shadowStack false Perm.all 0x80002000) ∧
    (ssEnables plat false = true ∧ ssEnables { plat with menvcfg := 0 } false = false) ∧
    findMapping guest.mappings .vs .load 0x80002000 = some (vsPage 0x80002000 .shadowStack ⟨true, true, false⟩) ∧
    ssEnables guest true = true ∧ ssEnables { guest with henvcfg := 0 } true = false := by decide

/-- A byte whose walk fails; a `010b` leaf of the second stage with either first stage; no mapping and a failed walk of
the second stage alone; a load and a store refused at their first and last byte, and a fetch at its third. -/
theorem witness_ShadowStackEncodingIsGated_accesses :
    let g : Perm := ⟨false, true, false⟩
    let s := { guest with mappings := [vsPage 0x80001000 .readWrite g,
      ⟨.gOnly, 0x80003000, 4096, allKinds, .leaf .readWrite false g 0x80003000⟩,
      ⟨.gOnly, 0x80004000, 4096, allKinds, .fault .access⟩] }
    let l := s.leafAt .readWrite false (some g) 0x80001000 1 .supervisor
    let u := { s with vsatpMode := .bare }
    (Priv.supervisor ≠ .machine ∧ plat.isBare false = false ∧
      plat.translate .load 0x80003000 1 .supervisor false = .fault .page) ∧
    (s.isBare true = false ∧ s.translate .store 0x80001000 1 .supervisor true = .leaf l ∧ l.g = some g ∧ g.r = false ∧
      g.w = true ∧ pageRefuses .store (s.mxrBit true) l.page = none ∧
      s.ordinaryUserOk .store .supervisor true l.u = true) ∧
    (u.isBare true = true ∧ u.hgatpMode = .paged ∧ findMapping u.mappings .gOnly .fetch 0x80005000 = none ∧
      findMapping u.mappings .gOnly .fetch 0x80004FFF =
        some ⟨.gOnly, 0x80004000, 4096, allKinds, .fault .access⟩ ∧
      findMapping u.mappings .gOnly .load 0x80003000 =
        some ⟨.gOnly, 0x80003000, 4096, allKinds, .leaf .readWrite false g 0x80003000⟩) := by decide

theorem witness_ShadowStackEncodingIsGated_stops :
    plat.ordinaryByte .load plat.effMode.1 plat.effMode.2 (plat.byteAddr 0x80003000 0) =
      .error .loadPageFault ∧
    ((∀ j < 7, plat.ordinaryByte .load plat.effMode.1 plat.effMode.2 (plat.byteAddr 0x80002FF9 j) =
        .ok (0x80002FF9 + j)) ∧
      plat.ordinaryByte .load plat.effMode.1 plat.effMode.2 (plat.byteAddr 0x80002FF9 7) = .error .loadPageFault) ∧
    ((∀ j < 7, plat.ordinaryByte .store plat.effMode.1 plat.effMode.2 (plat.byteAddr 0x80001FF9 j) =
        .ok (0x80001FF9 + j)) ∧
      plat.ordinaryByte .store plat.effMode.1 plat.effMode.2 (plat.byteAddr 0x80001FF9 7) = .error .storeAccessFault) ∧
    let s := { codeBelowStack with pc := 0x80001FFE }
    (∀ j < 2, s.ordinaryByte .fetch s.priv s.v (s.byteAddr s.pc j) = .ok (0x80001FFE + j)) ∧
    s.ordinaryByte .fetch s.priv s.v (s.byteAddr s.pc 2) = .error .instrAccessFault ∧
    isLong (halfOfBytes (Memory.read s.mem (0x80001FFE + 0)) (Memory.read s.mem (0x80001FFE + 1))) = true := by
  refine ⟨by rfl, ⟨?_, by rfl⟩, ⟨?_, by rfl⟩, ?_, by rfl, by decide⟩ <;> (intro j hj; interval_cases j <;> rfl)

theorem witness_PlatformChecksCoverEveryByte : 0 < 8 ∧ 7 < 8 := by decide

/-- The last doubleword of stack A, `MXR` clear. -/
theorem witness_LoadsReadShadowStackPages :
    let l : Nat → Leaf := fun k => plat.leafAt .shadowStack false none (0x80002FF8 + k) 1 .supervisor
    plat.effMode.1 ≠ .machine ∧ plat.isBare plat.effMode.2 = false ∧
    ∀ k < 8, plat.translate .load (plat.byteAddr 0x80002FF8 k) 1 plat.effMode.1 plat.effMode.2 = .leaf (l k) ∧
      (l k).page = .shadowStack ∧ plat.userBitOk plat.effMode.1 plat.effMode.2 (l k).u = true ∧ (l k).g = none ∧
      (l k).pmp.r = true := by decide

/-- A doubleword store that begins in stack A, and one whose last byte alone lies in it. -/
theorem witness_OrdinaryStoresToShadowStackFault :
    (0 < 8 ∧ plat.translate .store (plat.byteAddr 0x80002000 0) 1 plat.effMode.1 plat.effMode.2 =
      .leaf (leafA plat 1)) ∧
    (7 < 8 ∧ plat.effMode.1 ≠ .machine ∧ plat.isBare plat.effMode.2 = false ∧
      (∀ j < 7, ∃ a, plat.ordinaryByte .store plat.effMode.1 plat.effMode.2 (plat.byteAddr 0x80001FF9 j) = .ok a) ∧
      plat.translate .store (plat.byteAddr 0x80001FF9 7) 1 plat.effMode.1 plat.effMode.2 = .leaf (leafA plat 1) ∧
      (leafA plat 1).page = .shadowStack) := by
  refine ⟨by decide, by decide, by decide, by decide, ?_, by decide, by decide⟩
  intro j hj
  exact ⟨0x80001FF9 + j, by interval_cases j <;> rfl⟩

/-- A push to the last and to the first entry of stack A, on RV64 and RV32. -/
theorem witness_PushStoresAndMovesSsp :
    (plat.cfg.Wf ∧ plat.xSSE = true ∧ plat.ssFaults .push plat.pushAddr plat.entryBytes = []) ∧
    (plat.cfg.Wf ∧ ({ plat with ssp := 0x80002008 } : State).xSSE = true ∧
      ({ plat with ssp := 0x80002008 } : State).ssFaults .push 0x80002000 8 = [] ∧
      ({ plat with ssp := 0x80002008 } : State).pushAddr = 0x80002000) ∧
    plat32.cfg.Wf ∧ plat32.xSSE = true ∧ plat32.ssFaults .push plat32.pushAddr plat32.entryBytes = [] := by decide

/-- A push into the guard page, and from `ssp` = 0. -/
theorem witness_FaultingPushWritesNothing :
    let s := { plat with ssp := 0x80004000 }
    let u := { plat with ssp := 0 }
    (s.xSSE = true ∧
      s.ssFaults .push (s.trunc (s.readSsp - BitVec.ofNat 64 s.entryBytes)) s.entryBytes = [.storePageFault]) ∧
    u.xSSE = true ∧
      u.ssFaults .push (u.trunc (u.readSsp - BitVec.ofNat 64 u.entryBytes)) u.entryBytes = [.storePageFault] := by decide

/-- A pop of a matching entry of both checked registers, on RV64 and RV32. -/
theorem witness_MatchingPopMovesSsp :
    let s := (put64 { plat with ssp := 0x80002FF8 } 0x80002FF8 0x80000100).writeX 1 0x80000100
    let u := (put64 { plat32 with ssp := 0x80002000 } 0x80002000 0x80000100).writeX 5 0x80000100
    (s.cfg.Wf ∧ s.xSSE = true ∧ s.ssFaults .popChk s.readSsp s.entryBytes = [] ∧
      Memory.load s.mem (s.ssAddr .popChk s.readSsp s.entryBytes) s.entryBytes = s.readX 1) ∧
    u.cfg.Wf ∧ u.xSSE = true ∧ u.ssFaults .popChk u.readSsp u.entryBytes = [] ∧
      Memory.load u.mem (u.ssAddr .popChk u.readSsp u.entryBytes) u.entryBytes = u.readX 5 := by decide

theorem witness_MismatchingPopRaisesSoftwareCheck :
    let s := put64 { plat with ssp := 0x80002FF8 } 0x80002FF8 0x80000101
    s.xSSE = true ∧ s.ssFaults .popChk s.readSsp s.entryBytes = [] ∧
    Memory.load s.mem (s.ssAddr .popChk s.readSsp s.entryBytes) s.entryBytes ≠ s.readX 1 ∧
    Memory.load s.mem (s.ssAddr .popChk s.readSsp s.entryBytes) s.entryBytes ≠ s.readX 5 := by decide

/-- A pop from the guard page. -/
theorem witness_FaultingPopReportsTheLoad :
    plat.xSSE = true ∧ plat.ssFaults .popChk plat.readSsp plat.entryBytes = [.storePageFault] := by decide

theorem witness_InactivePushAndPopOnlyAdvance :
    State.reset.xSSE = false ∧ ({ plat with menvcfg := 0 } : State).xSSE = false := by decide

/-- A push and pop of the last entry of stack A. -/
theorem witness_PopAfterPushRestoresSsp :
    (Instr.sspushX1, Instr.sspopchkX1) ∈ [(Instr.sspushX1, Instr.sspopchkX1), (.cSspushX1, .sspopchkX1),
      (.sspushX5, .sspopchkX5), (.sspushX5, .cSspopchkX5)] ∧
    plat.cfg.Wf ∧ plat.xSSE = true ∧ plat.ssFaults .push plat.pushAddr plat.entryBytes = [] ∧
    plat.ssFaults .popChk plat.pushAddr plat.entryBytes = [] ∧
    plat.ssAddr .popChk plat.pushAddr plat.entryBytes = plat.ssAddr .push plat.pushAddr plat.entryBytes := by decide

/-- `SSRDP` with the first and the last register it may name. -/
theorem witness_SsrdpReadsSspOrZero : (1 : RegIdx) ≠ 0 ∧ (31 : RegIdx) ≠ 0 := by decide

theorem witness_MopsWriteZero :
    Instr.mopRr7 31 0 1 = .mopRr7 31 0 1 ∧ Instr.mopR28 0 31 = .mopR28 0 31 := by decide

/-- The modes and enables each clause asks for. -/
theorem witness_SwapEnabledByMode :
    ({ plat with cfg := { recommended with hasS := false } } : State).cfg.hasS = false ∧
    (plat.cfg.hasS = true ∧ guest.cfg.hasS = true) ∧ State.reset.priv = .machine ∧
    (({ plat with menvcfg := 0 } : State).priv ≠ .machine ∧ ({ plat with menvcfg := 0 } : State).menvcfg.getLsbD 3 = false) ∧
    (plat.menvcfg.getLsbD 3 = true ∧ plat.priv = .supervisor ∧ plat.v = false) ∧
    (({ plat with priv := .user } : State).priv = .user ∧ ({ plat with priv := .user } : State).v = false) ∧
    (guest.menvcfg.getLsbD 3 = true ∧ guest.priv = .supervisor ∧ guest.v = true) ∧
    ({ guest with priv := .user } : State).priv = .user ∧ ({ guest with priv := .user } : State).v = true := by decide

/-- A swap of the last word of stack A. -/
theorem witness_WordSwapCompletes :
    let s := plat.writeX 10 0x80002FFC
    s.ssAmoDenied = none ∧ s.ssFaults .amoSwap (s.readX 10) 4 = [] := by decide

/-- A swap of the last doubleword of stack A. -/
theorem witness_DoublewordSwapCompletes :
    let s := plat.writeX 10 0x80002FF8
    s.cfg.xlen = .rv64 ∧ s.ssAmoDenied = none ∧ s.ssFaults .amoSwap (s.readX 10) 8 = [] := by decide

theorem witness_DoublewordSwapIsIllegalOnRv32 : plat32.cfg.xlen = .rv32 := by decide

/-- A swap denied by each of the two exceptions. -/
theorem witness_SwapEnabledByMode_denied :
    ({ plat with menvcfg := 0 } : State).ssAmoDenied = some .illegalInstruction ∧ plat.cfg.xlen = .rv64 ∧
    ({ guest with henvcfg := 0 } : State).ssAmoDenied = some .virtualInstruction ∧ guest.cfg.xlen = .rv64 := by decide

/-- A word and a doubleword swap in a read-only page. -/
theorem witness_FaultingSwapWritesNothing :
    let s := plat.writeX 10 0x80006000
    s.ssAmoDenied = none ∧ s.ssFaults .amoSwap (s.readX 10) 4 = [.storePageFault] ∧ s.cfg.xlen = .rv64 ∧
    s.ssFaults .amoSwap (s.readX 10) 8 = [.storePageFault] := by decide

/-- Aligned addresses, the last word of the address space and the first doubleword, with `MPRV` clear, with `MPP` = M,
and with a previous mode below M. -/
theorem witness_MachineModeSwapFaults :
    let s := State.reset.writeX 10 0xFFFFFFFFFFFFFFFC
    let u := { s with mstatus := { s.mstatus with mprv := true, mpp := .machine } }
    (s.cfg.hasS = true ∧ s.priv = .machine ∧ s.mstatus.mprv = false ∧ (s.readX 10).toNat % 4 = 0 ∧
      s.cfg.xlen = .rv64 ∧ (s.readX 0).toNat % 8 = 0) ∧
    (u.cfg.hasS = true ∧ u.priv = .machine ∧ u.mstatus.mpp = .machine) ∧
    AccessesAsPrevious { s with mstatus := { s.mstatus with mprv := true } } :=
  ⟨by decide, by decide, rfl, rfl, nofun⟩

/-- The modes and enables each clause asks for. -/
theorem witness_SspCsrAccessByMode :
    State.reset.priv = .machine ∧
    (({ plat with menvcfg := 0 } : State).priv ≠ .machine ∧ ({ plat with menvcfg := 0 } : State).menvcfgSse = false) ∧
    (plat.menvcfgSse = true ∧ plat.priv = .supervisor ∧ plat.v = false) ∧
    (({ plat with priv := .user } : State).menvcfgSse = true ∧ ({ plat with priv := .user } : State).priv = .user ∧
      ({ plat with priv := .user } : State).v = false) ∧
    (guest.menvcfgSse = true ∧ guest.priv = .supervisor ∧ guest.v = true) ∧
    ({ guest with priv := .user } : State).menvcfgSse = true ∧ ({ guest with priv := .user } : State).priv = .user ∧
      ({ guest with priv := .user } : State).v = true := by decide

/-- M-mode with every enable clear, and S-mode; the zero and non-zero operand fields. -/
theorem witness_CsrRegisterFormsComplete :
    State.reset.sspCsrDenied = none ∧ plat.sspCsrDenied = none ∧ (31 : RegIdx) ≠ 0 := by decide

theorem witness_CsrImmediateFormsComplete :
    guest.sspCsrDenied = none ∧ ({ plat with priv := .user, senvcfg := 8 } : State).sspCsrDenied = none := by decide

/-- An access denied by each of the two exceptions, to the first and the last of the six instructions. -/
theorem witness_SspCsrAccessByMode_denied :
    ({ plat with priv := .user } : State).sspCsrDenied = some .illegalInstruction ∧
    ({ guest with priv := .user } : State).sspCsrDenied = some .virtualInstruction ∧
    Instr.csrrwSsp 0 31 ∈ [Instr.csrrwSsp 0 31, .csrrsSsp 0 31, .csrrcSsp 0 31, .csrrwiSsp 0 31, .csrrsiSsp 0 31,
      .csrrciSsp 0 31] ∧
    Instr.csrrciSsp 31 0 ∈ [Instr.csrrwSsp 31 0, .csrrsSsp 31 0, .csrrcSsp 31 0, .csrrwiSsp 31 0, .csrrsiSsp 31 0,
      .csrrciSsp 31 0] := by decide

/-- Each of the three grounds for not delegating. -/
theorem witness_UndelegatedTrapEntersMachineMode :
    State.reset.priv = .machine ∧ ({ plat with cfg := { recommended with hasS := false } } : State).cfg.hasS = false ∧
    plat.medeleg.getLsbD Exc.softwareCheck.code = false := by decide

/-- Delegated once, for each of the three grounds for going no further. -/
theorem witness_DelegatedTrapEntersSupervisorMode :
    let s := { plat with medeleg := 0x40000 }
    let u := { guest with medeleg := 0x40000 }
    let w := { guest with medeleg := 0x400000, hedeleg := 0x400000 }
    (s.priv ≠ .machine ∧ s.cfg.hasS = true ∧ s.medeleg.getLsbD Exc.softwareCheck.code = true ∧ s.v = false) ∧
    (u.priv ≠ .machine ∧ u.cfg.hasS = true ∧ u.medeleg.getLsbD Exc.softwareCheck.code = true ∧
      u.hedeleg.getLsbD Exc.softwareCheck.code = false) ∧
    w.priv ≠ .machine ∧ w.cfg.hasS = true ∧ w.medeleg.getLsbD Exc.virtualInstruction.code = true ∧
      Exc.virtualInstruction.neverToVs = true := by decide

theorem witness_TwiceDelegatedTrapEntersGuest :
    let s := { guest with medeleg := 0x40000, hedeleg := 0x40000 }
    s.priv ≠ .machine ∧ s.cfg.hasS = true ∧ s.medeleg.getLsbD Exc.softwareCheck.code = true ∧ s.v = true ∧
    s.hedeleg.getLsbD Exc.softwareCheck.code = true ∧ Exc.softwareCheck.neverToVs = false := by decide

theorem witness_SecondTrapValueOnlyForGuestFaults :
    Exc.storePageFault.isGuestPageFault = false ∧ Exc.storeGuestPageFault.isGuestPageFault = true ∧
    guest.trapTarget .storeGuestPageFault = .m ∧
    ({ guest with medeleg := 0x800000, hedeleg := 0x800000 } : State).trapTarget .storeGuestPageFault = .s := by decide

/-- A legal state and a trap into each of the three modes. -/
theorem witness_ReturnUndoesTrapEntry :
    plat.Legal ∧ plat.trapTarget .softwareCheck = .m ∧
    ({ plat with medeleg := 0x40000 } : State).Legal ∧
    ({ plat with medeleg := 0x40000 } : State).trapTarget .softwareCheck = .s ∧
    ({ guest with medeleg := 0x40000, hedeleg := 0x40000 } : State).Legal ∧
    ({ guest with medeleg := 0x40000, hedeleg := 0x40000 } : State).trapTarget .softwareCheck = .vs :=
  ⟨by decide, by decide, by decide, by decide, by decide, by decide⟩

/-- Each mode a return may be tried in. -/
theorem witness_ReturnUndoesTrapEntry_modes :
    (plat.priv ≠ .machine ∧ State.reset.priv = .machine) ∧
    ({ plat with cfg := { recommended with hasS := false } } : State).cfg.hasS = false ∧
    (({ plat with priv := .user } : State).priv = .user ∧ ({ plat with priv := .user } : State).v = false) ∧
    (({ guest with priv := .user } : State).cfg.hasS = true ∧ ({ guest with priv := .user } : State).priv = .user ∧
      ({ guest with priv := .user } : State).v = true) ∧
    (plat.cfg.hasS = true ∧ plat.priv ≠ .user ∧ plat.v = false) ∧ guest.cfg.hasS = true ∧ guest.priv ≠ .user ∧
    guest.v = true := by decide

/-- A legal state whose step is a push. -/
theorem witness_StepKeepsLegal :
    (plat.withFetchWord 32 0xCE104073).Legal ∧
    step (plat.withFetchWord 32 0xCE104073) =
      .next (after (step (plat.withFetchWord 32 0xCE104073)) State.reset) := ⟨by decide, by rfl⟩

/-- Legal parameters at both ends: the last even reset vector of RV32, and a machine with neither S-mode nor H. -/
theorem witness_ResetIsLegal :
    ({ recommended with xlen := .rv32, sspBit2RoZero := false, resetVector := 0xFFFFFFFE } : Params).Wf ∧
    ({ recommended with hasS := false, resetVector := 0 } : Params).Wf := by decide

theorem witness_ResetStartsInMachineMode : recommended.sspBit2RoZero = true := by decide

/-- A step that changes no environment register, and for each register one that does: `csrrwi x0, menvcfg, 8` in M-mode,
`csrrwi x0, henvcfg, 4` in HS-mode, `csrrwi x0, senvcfg, 4` in VS-mode. -/
theorem witness_OnlyCsrWritesChangeTheEnvironment :
    let h := { plat with cfg := { recommended with hasH := true } }
    step (plat.withFetchWord 32 0xCDC0C073) =
      .next (after (step (plat.withFetchWord 32 0xCDC0C073)) State.reset) ∧
    (step (State.reset.withFetchWord 32 0x30A45073) =
      .next (after (step (State.reset.withFetchWord 32 0x30A45073)) plat) ∧
      (after (step (State.reset.withFetchWord 32 0x30A45073)) plat).menvcfg = 8) ∧
    (step (h.withFetchWord 32 0x60A25073) = .next (after (step (h.withFetchWord 32 0x60A25073)) plat) ∧
      (after (step (h.withFetchWord 32 0x60A25073)) plat).henvcfg = 4) ∧
    step (guest.withFetchWord 32 0x10A25073) = .next (after (step (guest.withFetchWord 32 0x10A25073)) plat) ∧
      (after (step (guest.withFetchWord 32 0x10A25073)) plat).senvcfg = 4 :=
  ⟨by rfl, ⟨by rfl, by rfl⟩, ⟨by rfl, by rfl⟩, by rfl, by rfl⟩

/-- Every base instruction at the ends of its operands' ranges, on the machines it exists on. -/
theorem witness_BaseDecodeInvertsEncode :
    (∀ p ∈ [(Xlen.rv32, BaseInstr.mret), (.rv64, .sret), (.rv64, .csrEnv .rw false .menvcfg 31 0),
      (.rv32, .csrEnv .rc true .henvcfgh 0 31), (.rv64, .unimp), (.rv32, .addi 31 0 0x800), (.rv32, .lw 0 31 0x7FF),
      (.rv64, .ld 31 31 0xFFF), (.rv64, .sd 31 0 0x800), (.rv32, .beq 31 0 0x800), (.rv32, .ret),
      (.rv32, .cAddi 31 0x20), (.rv64, .cSdsp 31 0x3F), (.rv64, .cLdsp 31 0x3F), (.rv32, .cJr 31)],
      p.2.existsOn p.1 = true) ∧
    decodeBase .rv64 [0x82, 0x62] = some (.cLdsp 5 0) := by decide

/-- A load and a store that go on, the store's places distinct, and one of each that faults. -/
theorem witness_BaseInstructionsHaveTheirListedEffect :
    plat.memRead 0x80002FF8 8 = .ok 0 ∧ plat.memRead 0x80003000 4 = .error (.loadPageFault, 0x80003000) ∧
    plat.ordinaryBytes .store plat.effMode.1 plat.effMode.2 0x80001000 8 =
      .ok [0x80001000, 0x80001001, 0x80001002, 0x80001003, 0x80001004, 0x80001005, 0x80001006, 0x80001007] ∧
    [0x80001000, 0x80001001, 0x80001002, 0x80001003, 0x80001004, 0x80001005, 0x80001006, 0x80001007].Nodup ∧
    plat.ordinaryBytes .store plat.effMode.1 plat.effMode.2 0x80002000 8 = .error (.storeAccessFault, 0x80002000) :=
  ⟨by rfl, by rfl, by rfl, by decide, by rfl⟩

/-- An instruction that writes no memory, and a step of each kind that does. -/
theorem witness_OnlyPushSwapAndBaseStoreWriteMemory :
    (exec (.ssrdp 1) plat = .next (after (exec (.ssrdp 1) plat) State.reset) ∧
      (Instr.ssrdp 1 ≠ .sspushX1 ∧ Instr.ssrdp 1 ≠ .sspushX5 ∧ Instr.ssrdp 1 ≠ .cSspushX1) ∧
      ∀ rd rs2 rs1 aq rl, Instr.ssrdp 1 ≠ .ssamoswapW rd rs2 rs1 aq rl ∧ Instr.ssrdp 1 ≠ .ssamoswapD rd rs2 rs1 aq rl) ∧
    (step (plat.withFetchWord 32 0xCE104073) =
      .next (after (step (plat.withFetchWord 32 0xCE104073)) State.reset)) ∧
    step ((plat.writeX 2 0x80001F00).withFetchWord 32 0x00113023) =
      .next (after (step ((plat.writeX 2 0x80001F00).withFetchWord 32 0x00113023)) State.reset) :=
  ⟨⟨rfl, by decide, fun _ _ _ _ _ => ⟨nofun, nofun⟩⟩, by rfl, by rfl⟩

theorem witness_EnabledExactlyWhereActive : plat.priv ≠ .machine ∧ guest.priv ≠ .machine := by decide

/-- A mode below M with Zicfiss inactive, an instruction and a step there, for the last two isolation statements. -/
theorem witness_InactiveModes :
    let s := { plat with menvcfg := 0 }
    s.priv ≠ .machine ∧ s.xSSE = false ∧
    exec (.csrrwSsp 1 1) s = .next (after (exec (.csrrwSsp 1 1) s) State.reset) ∧
    let u := (s.writeX 2 0x80001F00).withFetchWord 32 0x00113023
    u.priv ≠ .machine ∧ u.xSSE = false ∧ step u = .next (after (step u) State.reset) :=
  ⟨by decide, by decide, by rfl, by decide, by decide, by rfl⟩

/-- A May-Be-Operation that completes, and one that traps. -/
theorem witness_MopEncodingsAreNeverIllegal :
    exec .sspushX1 plat = .next (after (exec .sspushX1 plat) State.reset) ∧
    exec .sspopchkX1 plat = .next (after (exec .sspopchkX1 plat) State.reset) ∧
    Instr.sspushX1 ∈ [Instr.sspushX1, .sspushX5, .cSspushX1, .sspopchkX1, .sspopchkX5, .cSspopchkX5, .cMop1, .cMop5] ∧
    Instr.sspopchkX1 ∈ [Instr.sspushX1, .sspushX5, .cSspushX1, .sspopchkX1, .sspopchkX5, .cSspopchkX5, .cMop1, .cMop5] :=
  ⟨rfl, rfl, by decide, by decide⟩

end Sys2Proof.Machine.Tests
end

section
/-! PROOFS, the family of 10_state.md, part 1: what a step can do.

A step is a chain of elementary updates (`Update`), preceded, for a CSR instruction on an environment register that is
allowed, by the write to that register (`step_updates`). An invariant is proved for each elementary update once. -/

namespace Sys2Proof.Machine

/-! ## Elementary updates -/

/-- One elementary update of the state, by something other than a write to an environment register. A displacement of
`pc` is even; a return to a mode needs what the return instruction checks. -/
inductive Update : State → State → Prop
  | writeX (s : State) (r : RegIdx) (w : Word) : Update s (s.writeX r w)
  | writeSsp (s : State) (w : Word) : Update s (s.writeSsp w)
  | storeAt (s : State) (pa n : Nat) (w : Word) : Update s (s.storeAt pa n w)
  | scatter (s : State) (as : List Nat) (w : Word) : Update s { s with mem := s.mem.scatter as w }
  | moveBy (s : State) (d : Word) (hd : d.getLsbD 0 = false) : Update s { s with pc := s.trunc (s.pc + d) }
  | jumpTo (s : State) (w : Word) : Update s (s.jumpTo w)
  | draw (s : State) (n : Nat) : Update s { s with draws := n }
  | takeTrap (s : State) (e : Exc) (tval : Word) : Update s (s.takeTrap e tval)
  | returnM (s : State) : Update s s.returnM
  | returnS (s : State) (hS : s.cfg.hasS = true) : Update s s.returnS
  | returnVs (s : State) (hS : s.cfg.hasS = true) (hv : s.v = true) : Update s s.returnVs

/-- A chain of elementary updates. -/
abbrev Updates : State → State → Prop := Relation.ReflTransGen Update

/-- An even number of bytes ahead is an even displacement. -/
theorem Updates.advance {s t : State} (h : Updates s t) (n : Nat) (hn : (BitVec.ofNat 64 n).getLsbD 0 = false) :
    Updates s (t.advance n) := h.tail (.moveBy t _ hn)

theorem Updates.raiseAddr (s : State) (e : Exc) (va : Word) : Updates s (s.raiseAddr e va) :=
  .single (.takeTrap s e _)

theorem Updates.raiseInsn (s : State) (e : Exc) (w : BitVec 32) : Updates s (s.raiseInsn e w) :=
  .single (.takeTrap s e _)

theorem Updates.raiseSs (s : State) (e : Exc) (es : List Exc) (va : Word) : Updates s (s.raiseSs e es va) :=
  (Relation.ReflTransGen.single (.draw s (s.drawsAfter es))).tail (.takeTrap _ _ _)

/-! ## The instructions of the opcode table -/

theorem Updates.withSsAccess {s : State} {op : SsOp} {va : Word} {n : Nat} {go : Nat → State}
    (hgo : ∀ pa, Updates s (go pa)) : Updates s (s.withSsAccess op va n go) := by
  rcases s.withSsAccess_cases op va n go with ⟨_, h⟩ | ⟨e, es, _, h⟩
  · exact h ▸ hgo _
  · exact h ▸ Updates.raiseSs s e es va

theorem Updates.zimop (s : State) (rd : RegIdx) : Updates s (s.zimop rd) :=
  Updates.advance (.single (.writeX s rd 0)) 4 (by decide)

theorem Updates.zcmop (s : State) : Updates s s.zcmop := Updates.advance .refl 2 (by decide)

theorem Updates.ssPush {s fallback : State} (src : RegIdx) (n : Nat)
    (hn : (BitVec.ofNat 64 n).getLsbD 0 = false) (hf : Updates s fallback) :
    Updates s (s.ssPush src n fallback) := by
  unfold State.ssPush
  split
  · exact Updates.withSsAccess fun pa =>
      Updates.advance (.tail (.single (.storeAt s pa _ _)) (.writeSsp _ _)) n hn
  · exact hf

theorem Updates.ssPopChk {s fallback : State} (src : RegIdx) (n : Nat)
    (hn : (BitVec.ofNat 64 n).getLsbD 0 = false) (hf : Updates s fallback) :
    Updates s (s.ssPopChk src n fallback) := by
  unfold State.ssPopChk
  split
  · refine Updates.withSsAccess fun pa => ?_
    split
    · exact Updates.advance (.single (.writeSsp s _)) n hn
    · exact .single (.takeTrap s .softwareCheck 3)
  · exact hf

theorem Updates.ssAmoSwap (s : State) (n : Nat) (ext : Word → Word) (rd rs2 rs1 : RegIdx) (word : BitVec 32) :
    Updates s (s.ssAmoSwap n ext rd rs2 rs1 word) := by
  unfold State.ssAmoSwap
  split
  · exact Updates.raiseInsn s _ word
  · exact Updates.withSsAccess fun pa =>
      Updates.advance (.tail (.single (.storeAt s pa n _)) (.writeX _ _ _)) 4 (by decide)

theorem Updates.csrSsp (s : State) (rd : RegIdx) (new : Option Word) (word : BitVec 32) :
    Updates s (s.csrSsp rd new word) := by
  unfold State.csrSsp
  split
  · exact Updates.raiseInsn s _ word
  · split
    · exact Updates.advance (.tail (.single (.writeSsp s _)) (.writeX _ _ _)) 4 (by decide)
    · exact Updates.advance (.single (.writeX s _ _)) 4 (by decide)

/-- What an instruction of the opcode table does is a chain of elementary updates. -/
theorem exec_updates {i : Instr} {s t : State} (h : exec i s = .next t) : Updates s t := by
  cases i
  case sspushX1 => cases h; exact Updates.ssPush 1 4 (by decide) (.zimop s 0)
  case sspushX5 => cases h; exact Updates.ssPush 5 4 (by decide) (.zimop s 0)
  case cSspushX1 => cases h; exact Updates.ssPush 1 2 (by decide) (.zcmop s)
  case sspopchkX1 => cases h; exact Updates.ssPopChk 1 4 (by decide) (.zimop s 0)
  case sspopchkX5 => cases h; exact Updates.ssPopChk 5 4 (by decide) (.zimop s 0)
  case cSspopchkX5 => cases h; exact Updates.ssPopChk 5 2 (by decide) (.zcmop s)
  case ssrdp rd =>
    cases h
    split
    · exact Updates.advance (.single (.writeX s rd _)) 4 (by decide)
    · exact .zimop s rd
  case ssamoswapW => cases h; exact .ssAmoSwap s ..
  case ssamoswapD =>
    simp only [exec, execSsamoswapD] at h
    split at h
    · cases h; exact .raiseInsn s ..
    · cases h; exact .ssAmoSwap s ..
  case mopRr7 rd _ _ => cases h; exact .zimop s rd
  case mopR28 rd _ => cases h; exact .zimop s rd
  case cMop1 => cases h; exact .zcmop s
  case cMop5 => cases h; exact .zcmop s
  all_goals cases h; exact .csrSsp s ..

/-! ## The base instructions -/

theorem Updates.loadTo (s : State) (rd : RegIdx) (va : Word) (k : Nat) (ext : Word → Word) (n : Nat)
    (hn : (BitVec.ofNat 64 n).getLsbD 0 = false) : Updates s (s.loadTo rd va k ext n) := by
  rcases s.loadTo_cases rd va k ext n with ⟨w, _, h⟩ | ⟨e, a, _, h⟩
  · exact h ▸ Updates.advance (.single (.writeX s rd (ext w))) n hn
  · exact h ▸ Updates.raiseAddr s e a

theorem Updates.storeFrom (s : State) (va : Word) (k : Nat) (w : Word) (n : Nat)
    (hn : (BitVec.ofNat 64 n).getLsbD 0 = false) : Updates s (s.storeFrom va k w n) := by
  rcases s.storeFrom_cases va k w n with ⟨as, _, _, h⟩ | ⟨e, a, _, h⟩
  · exact h ▸ Updates.advance (.single (.scatter s as w)) n hn
  · exact h ▸ Updates.raiseAddr s e a

theorem Updates.addImm (s : State) (rd rs1 : RegIdx) (imm : Word) (n : Nat)
    (hn : (BitVec.ofNat 64 n).getLsbD 0 = false) : Updates s (s.addImm rd rs1 imm n) :=
  Updates.advance (.single (.writeX s rd _)) n hn

theorem Updates.branchEq (s : State) (rs1 rs2 : RegIdx) (off : Word) (ho : off.getLsbD 0 = false) :
    Updates s (s.branchEq rs1 rs2 off) := by
  unfold State.branchEq
  split
  · exact .single (.moveBy s off ho)
  · exact Updates.advance .refl 4 (by decide)

theorem Updates.mret (s : State) : Updates s s.mret := by
  rcases s.mret_cases with ⟨_, h⟩ | ⟨_, h⟩
  · exact h ▸ .single (.returnM s)
  · exact h ▸ Updates.raiseInsn s _ _

/-- `SRET` runs only where S-mode exists. -/
theorem State.hasS_of_sretDenied {s : State} (h : s.sretDenied = none) : s.cfg.hasS = true := by
  unfold State.sretDenied at h
  cases hS : s.cfg.hasS
  · simp [hS] at h
  · rfl

theorem Updates.sret (s : State) : Updates s s.sret := by
  rcases s.sret_cases with ⟨e, _, h⟩ | ⟨hd, ⟨hv, h⟩ | ⟨_, h⟩⟩
  · exact h ▸ Updates.raiseInsn s e _
  · exact h ▸ .single (.returnVs s (State.hasS_of_sretDenied hd) hv)
  · exact h ▸ .single (.returnS s (State.hasS_of_sretDenied hd))

/-- What a base instruction does is a chain of elementary updates, after the write to the environment register where it
is a CSR instruction that is allowed and writes one. -/
theorem State.execBase_updates (s : State) (b : BaseInstr) :
    Updates s (s.execBase b) ∨
      ∃ op imm c rd f w, b = .csrEnv op imm c rd f ∧ s.envDenied c = none ∧
        Updates (s.writeEnv c w) (s.execBase b) := by
  cases b
  case csrEnv op imm c rd f =>
    rcases s.csrEnv_cases c rd (op.newValue (s.readEnv c) f (s.csrOperand imm f))
      (BaseInstr.csrEnv op imm c rd f).word with ⟨e, _, h⟩ | ⟨hd, ⟨_, h⟩ | ⟨w, _, h⟩⟩
    · exact .inl (h ▸ Updates.raiseInsn s e _ : Updates s (s.csrEnv ..))
    · exact .inl (h ▸ Updates.advance (.single (.writeX s rd _)) 4 (by decide) : Updates s (s.csrEnv ..))
    · exact .inr ⟨op, imm, c, rd, f, w, rfl, hd,
        (h ▸ Updates.advance (.single (.writeX _ rd _)) 4 (by decide) : Updates (s.writeEnv c w) (s.csrEnv ..))⟩
  case mret => exact .inl (.mret s)
  case sret => exact .inl (.sret s)
  case unimp => exact .inl (.raiseInsn s ..)
  case addi => exact .inl (.addImm s _ _ _ 4 (by decide))
  case cAddi => exact .inl (.addImm s _ _ _ 2 (by decide))
  case lw => exact .inl (.loadTo s _ _ _ _ 4 (by decide))
  case ld => exact .inl (.loadTo s _ _ _ _ 4 (by decide))
  case cLdsp => exact .inl (.loadTo s _ _ _ _ 2 (by decide))
  case sd => exact .inl (.storeFrom s _ _ _ 4 (by decide))
  case cSdsp => exact .inl (.storeFrom s _ _ _ 2 (by decide))
  case beq => exact .inl (.branchEq s _ _ _ (by simp))
  case ret => exact .inl (.single (.jumpTo s _))
  case cJr => exact .inl (.single (.jumpTo s _))

/-! ## The step -/

/-- What a step can do: a chain of elementary updates, preceded by the write to an environment register where the
bytes fetched are a CSR instruction on it that is allowed. -/
theorem step_updates {s t : State} (h : step s = .next t) :
    Updates s t ∨
      ∃ bytes op imm c rd f w, s.fetch = .ok bytes ∧ decodeBase s.cfg.xlen bytes = some (.csrEnv op imm c rd f) ∧
        s.envDenied c = none ∧ Updates (s.writeEnv c w) t := by
  unfold step at h
  split at h
  next e va _ => cases h; exact .inl (.raiseAddr s e va)
  next bytes hfetch =>
    split at h
    next => exact .inl (exec_updates h)
    next =>
      split at h
      next b hb =>
        cases h
        rcases s.execBase_updates b with hu | ⟨op, imm, c, rd, f, w, rfl, hd, hu⟩
        · exact .inl hu
        · exact .inr ⟨bytes, op, imm, c, rd, f, w, hfetch, hb, hd, hu⟩
      next => cases h

end Sys2Proof.Machine
end

section
/-! PROOFS, the family of 10_state.md, part 2: the invariant `State.Legal`, update by update. -/

namespace Sys2Proof.Machine

open Sys2Proof.Config

/-! ## `XLEN`-bit and even values -/

theorem fitsIn_trunc (s : State) (w : Word) : FitsIn s.cfg.xlen (s.trunc w) := s.trunc_trunc w

/-- Bit 0 survives truncation. -/
theorem State.trunc_getLsbD_zero (s : State) (w : Word) : (s.trunc w).getLsbD 0 = w.getLsbD 0 := by
  have hpos : 0 < xlenBits s.cfg.xlen := by cases s.cfg.xlen <;> decide
  rw [State.trunc, truncTo_getLsbD, decide_eq_true hpos, Bool.true_and]

theorem pcFits_trunc (s : State) {w : Word} (h : w.getLsbD 0 = false) : PcFits s.cfg.xlen (s.trunc w) :=
  ⟨fitsIn_trunc s w, (s.trunc_getLsbD_zero w).trans h⟩

theorem getLsbD_zero_add {a b : Word} (ha : a.getLsbD 0 = false) (hb : b.getLsbD 0 = false) :
    (a + b).getLsbD 0 = false := by
  rw [BitVec.getLsbD_add (by decide), ha, hb]
  simp

/-- Every cause code fits in 32 bits. -/
theorem fitsIn_code (x : Xlen) (e : Exc) : FitsIn x (BitVec.ofNat 64 e.code) := by
  cases x
  · cases e <;> decide
  · rfl

/-! ## Updates that touch one part of the state -/

section
variable {s : State}

theorem State.Legal.writeX (h : s.Legal) (r : RegIdx) (w : Word) : (s.writeX r w).Legal := by
  obtain ⟨hwf, hmode, hsaved, ⟨hzero, hfits⟩, hrest⟩ := h
  refine ⟨hwf, hmode, hsaved, ?_, hrest⟩
  by_cases hr : r = 0
  · subst hr; exact ⟨hzero, hfits⟩
  · have hn : r.toNat ≠ 0 := fun h0 => hr (BitVec.eq_of_toNat_eq h0)
    simp only [State.RegsLegal, State.writeX, if_neg hr]
    refine ⟨by rw [Vector.getElem_set_ne (h := hn)]; exact hzero, fun i => ?_⟩
    simp only [Fin.getElem_fin, Vector.getElem_set]
    split
    · exact fitsIn_trunc s w
    · exact hfits i

theorem State.Legal.writeSsp (h : s.Legal) (w : Word) : (s.writeSsp w).Legal := by
  obtain ⟨hwf, hmode, hsaved, hregs, _, hrest⟩ := h
  exact ⟨hwf, hmode, hsaved, hregs, s.legalSsp_legalSsp w, hrest⟩

theorem State.Legal.withPc (h : s.Legal) {p : Word} (hp : PcFits s.cfg.xlen p) : { s with pc := p }.Legal := by
  obtain ⟨hwf, hmode, hsaved, hregs, hssp, _, hrest⟩ := h
  exact ⟨hwf, hmode, hsaved, hregs, hssp, hp, hrest⟩

theorem State.Legal.withMem (h : s.Legal) {m : Memory} (hm : Memory.wf m = true) : { s with mem := m }.Legal := by
  obtain ⟨hwf, hmode, hsaved, hregs, hssp, hpc, hmt, hst, hvst, hmtval2, hhtval, _⟩ := h
  exact ⟨hwf, hmode, hsaved, hregs, hssp, hpc, hmt, hst, hvst, hmtval2, hhtval, hm⟩

theorem State.Legal.pc_fits (h : s.Legal) : PcFits s.cfg.xlen s.pc := by
  obtain ⟨_, _, _, _, _, hpc, _⟩ := h
  exact hpc

theorem State.Legal.mem_wf (h : s.Legal) : Memory.wf s.mem = true := by
  obtain ⟨_, _, _, _, _, _, _, _, _, _, _, hmem⟩ := h
  exact hmem

/-- The invariant does not speak of the environment registers (10 R15 to R17). -/
theorem State.Legal.writeEnv (h : s.Legal) (c : EnvCsr) (w : Word) : (s.writeEnv c w).Legal := by
  rw [s.writeEnv_frame c w]
  exact h

/-! ## Taking an exception -/

theorem State.Legal.savedRegs (h : s.Legal) (r : TrapRegs) (e : Exc) (tval : Word) :
    (s.savedRegs r e tval).Legal s.cfg.xlen :=
  ⟨h.pc_fits, fitsIn_code _ e, fitsIn_trunc s tval⟩

/-- A trap handler's address is even (60 R170; log entry 21). -/
theorem pcFits_tvecBase (s : State) (tvec : Word) : PcFits s.cfg.xlen (s.tvecBase tvec) :=
  pcFits_trunc s (by simp)

theorem State.Legal.enterM (h : s.Legal) (e : Exc) (tval : Word) : (s.enterM e tval).Legal := by
  have hm := h.savedRegs s.mTrap e tval
  obtain ⟨hwf, ⟨_, hvH, hsS⟩, ⟨_, hmpvH, hspvH⟩, hregs, hssp, _, _, hrest⟩ := h
  refine ⟨hwf, ⟨fun _ => rfl, nofun, nofun⟩, ⟨hsS, ?_, hspvH⟩, hregs, hssp, pcFits_tvecBase s _, hm, hrest⟩
  intro hmpv
  simp only [State.enterM] at hmpv
  split at hmpv
  · assumption
  · exact hmpvH hmpv

theorem State.Legal.enterS (h : s.Legal) (hS : s.cfg.hasS = true) (e : Exc) (tval : Word) :
    (s.enterS e tval).Legal := by
  have hst := h.savedRegs s.sTrap e tval
  obtain ⟨hwf, _, ⟨hmpp, hmpvH, hspvH⟩, hregs, hssp, _, hmt, _, hrest⟩ := h
  refine ⟨hwf, ⟨fun _ => rfl, nofun, fun _ => hS⟩, ⟨hmpp, hmpvH, ?_⟩, hregs, hssp, pcFits_tvecBase s _, hmt, hst, hrest⟩
  intro hspv
  simp only [State.enterS] at hspv
  split at hspv
  · assumption
  · exact hspvH hspv

theorem State.Legal.enterVs (h : s.Legal) (hS : s.cfg.hasS = true) (hv : s.v = true) (e : Exc) (tval : Word) :
    (s.enterVs e tval).Legal := by
  have hvst := h.savedRegs s.vsTrap e tval
  obtain ⟨hwf, ⟨_, hvH, _⟩, hsaved, hregs, hssp, _, hmt, hst, _, hrest⟩ := h
  exact ⟨hwf, ⟨nofun, fun _ => hvH hv, fun _ => hS⟩, hsaved, hregs, hssp, pcFits_tvecBase s _, hmt, hst, hvst, hrest⟩

theorem State.Legal.noteGuestAddress (h : s.Legal) (e : Exc) (t : Target) : (s.noteGuestAddress e t).Legal := by
  obtain ⟨hwf, hmode, hsaved, hregs, hssp, hpc, hmt, hst, hvst, hmtval2, hhtval, hmem⟩ := h
  unfold State.noteGuestAddress
  split
  · cases t
    case m => exact ⟨hwf, hmode, hsaved, hregs, hssp, hpc, hmt, hst, hvst, fitsIn_trunc s _, hhtval, hmem⟩
    case s => exact ⟨hwf, hmode, hsaved, hregs, hssp, hpc, hmt, hst, hvst, hmtval2, fitsIn_trunc s _, hmem⟩
    case vs => exact ⟨hwf, hmode, hsaved, hregs, hssp, hpc, hmt, hst, hvst, hmtval2, hhtval, hmem⟩
  · exact ⟨hwf, hmode, hsaved, hregs, hssp, hpc, hmt, hst, hvst, hmtval2, hhtval, hmem⟩

/-- A trap enters S-mode only where it exists, and VS-mode only from `V` = 1 (60 R173). -/
theorem State.trapTarget_cases (s : State) (e : Exc) :
    s.trapTarget e = .m ∨ (s.trapTarget e = .s ∧ s.cfg.hasS = true) ∨
      (s.trapTarget e = .vs ∧ s.cfg.hasS = true ∧ s.v = true) := by
  unfold State.trapTarget
  split
  next hdeleg =>
    have hS : s.cfg.hasS = true := by simp_all
    split
    next hvs => exact .inr (.inr ⟨rfl, hS, by simp_all⟩)
    next => exact .inr (.inl ⟨rfl, hS⟩)
  next => exact .inl rfl

theorem State.Legal.takeTrap (h : s.Legal) (e : Exc) (tval : Word) : (s.takeTrap e tval).Legal := by
  unfold State.takeTrap
  rcases s.trapTarget_cases e with ht | ⟨ht, hS⟩ | ⟨ht, hS, hv⟩ <;> rw [ht]
  · exact (h.enterM e tval).noteGuestAddress e .m
  · exact (h.enterS hS e tval).noteGuestAddress e .s
  · exact (h.enterVs hS hv e tval).noteGuestAddress e .vs

/-! ## Returning from a trap -/

theorem State.Legal.returnM (h : s.Legal) : s.returnM.Legal := by
  obtain ⟨hwf, _, ⟨hmpp, _, hspvH⟩, hregs, hssp, _, ⟨hepc, hcause⟩, hrest⟩ := h
  refine ⟨hwf, ⟨?_, ?_, hmpp⟩, ⟨nofun, nofun, hspvH⟩, hregs, hssp, hepc, ⟨hepc, hcause⟩, hrest⟩
  · intro hp; simp_all
  · intro hv; simp_all

theorem State.Legal.returnS (h : s.Legal) (hS : s.cfg.hasS = true) : s.returnS.Legal := by
  obtain ⟨hwf, _, ⟨hmpp, hmpvH, hspvH⟩, hregs, hssp, _, hmt, ⟨hepc, hcause⟩, hrest⟩ := h
  refine ⟨hwf, ⟨?_, ?_, fun _ => hS⟩, ⟨hmpp, hmpvH, nofun⟩, hregs, hssp, hepc, hmt, ⟨hepc, hcause⟩, hrest⟩
  · intro hp
    simp only [State.returnS_priv, privOfSpp] at hp
    split at hp <;> cases hp
  · intro hv; simp_all

theorem State.Legal.returnVs (h : s.Legal) (hS : s.cfg.hasS = true) (hv : s.v = true) : s.returnVs.Legal := by
  obtain ⟨hwf, ⟨_, hvH, _⟩, hsaved, hregs, hssp, _, hmt, hst, ⟨hepc, hcause⟩, hrest⟩ := h
  refine ⟨hwf, ⟨?_, fun _ => hvH hv, fun _ => hS⟩, hsaved, hregs, hssp, hepc, hmt, hst, ⟨hepc, hcause⟩, hrest⟩
  intro hp
  simp only [State.returnVs_priv, privOfSpp] at hp
  split at hp <;> cases hp

end

/-! ## Every step -/

theorem Update.legal {s t : State} (hu : Update s t) (h : s.Legal) : t.Legal := by
  cases hu
  case writeX r w => exact h.writeX r w
  case writeSsp w => exact h.writeSsp w
  case storeAt pa n w => exact h.withMem (Memory.store_wf n _ pa w h.mem_wf)
  case scatter as w => exact h.withMem (Memory.scatter_wf as _ w h.mem_wf)
  case moveBy d hd => exact h.withPc (pcFits_trunc s (getLsbD_zero_add h.pc_fits.2 hd))
  case jumpTo w => exact h.withPc (pcFits_trunc s (by simp))
  case draw n => exact h
  case takeTrap e tval => exact h.takeTrap e tval
  case returnM => exact h.returnM
  case returnS hS => exact h.returnS hS
  case returnVs hS hv => exact h.returnVs hS hv

theorem Updates.legal {s t : State} (hu : Updates s t) (h : s.Legal) : t.Legal := by
  induction hu with
  | refl => exact h
  | tail _ hlast ih => exact hlast.legal ih

/-- Settles O49: a step is a chain of elementary updates, after a write to an environment register or not, and each of
them keeps the invariant. -/
theorem stepKeepsLegal : Obligations.StepKeepsLegal := by
  intro s t h hstep
  rcases step_updates hstep with hu | ⟨_, _, _, c, _, _, w, _, _, _, hu⟩
  · exact hu.legal h
  · exact hu.legal (h.writeEnv c w)

end Sys2Proof.Machine
end

section
/-! PROOFS, the family of 10_state.md, part 3: which steps change the platform's tables and the environment registers. -/

namespace Sys2Proof.Machine

/-! ## The frame relations compose -/

theorem SameTables.refl (s : State) : SameTables s s := ⟨rfl, rfl, rfl, rfl, rfl, rfl, rfl, rfl, rfl, rfl, rfl, rfl⟩

theorem SameEnv.refl (s : State) : SameEnv s s := ⟨rfl, rfl, rfl⟩

theorem SamePlatform.refl (s : State) : SamePlatform s s := ⟨.refl s, .refl s⟩

theorem SameTables.trans {s t u : State} (h : SameTables s t) (h' : SameTables t u) : SameTables s u := by
  unfold SameTables at *
  simp_all

theorem SameEnv.trans {s t u : State} (h : SameEnv s t) (h' : SameEnv t u) : SameEnv s u := by
  unfold SameEnv at *
  simp_all

theorem SamePlatform.trans {s t u : State} (h : SamePlatform s t) (h' : SamePlatform t u) : SamePlatform s u :=
  let ⟨htables, henv⟩ := h
  let ⟨htables', henv'⟩ := h'
  ⟨htables.trans htables', henv.trans henv'⟩

/-! ## Elementary updates -/

/-- No elementary update reaches the platform: an exception by its own law (60 R168), the others by what they write. -/
theorem Update.samePlatform {s t : State} (hu : Update s t) : SamePlatform s t := by
  cases hu
  case takeTrap e tval =>
    obtain ⟨_, _, _, hplatform⟩ := s.takeTrap_nothingWritten e tval
    exact hplatform
  all_goals exact .refl s

theorem Updates.samePlatform {s t : State} (hu : Updates s t) : SamePlatform s t := by
  induction hu with
  | refl => exact .refl s
  | tail _ hlast ih => exact ih.trans hlast.samePlatform

/-! ## Writes to an environment register -/

theorem State.writeEnv_sameTables (s : State) (c : EnvCsr) (w : Word) : SameTables s (s.writeEnv c w) := by
  simp [SameTables]

/-- An access is allowed exactly where the register exists and the mode may reach it (45 R153, 92 D7). -/
theorem State.envDenied_eq_none_iff (s : State) (c : EnvCsr) :
    s.envDenied c = none ↔ s.envExists c = true ∧ c.allowed s.priv s.v = true := by
  unfold State.envDenied
  cases s.envExists c <;> cases c.allowed s.priv s.v <;> simp
  split <;> simp

/-- `menvcfg` and its high half are M-mode's alone. -/
theorem EnvCsr.allowed_menvcfg_iff {c : EnvCsr} (hc : c = .menvcfg ∨ c = .menvcfgh) (p : Priv) (v : Bool) :
    c.allowed p v = true ↔ p = .machine := by
  rcases hc with rfl | rfl <;> cases p <;> simp [EnvCsr.allowed]

/-- `henvcfg` and its high half are M-mode's and HS-mode's. -/
theorem EnvCsr.allowed_henvcfg_iff {c : EnvCsr} (hc : c = .henvcfg ∨ c = .henvcfgh) (p : Priv) (v : Bool) :
    c.allowed p v = true ↔ p = .machine ∨ p = .supervisor ∧ v = false := by
  rcases hc with rfl | rfl <;> cases p <;> simp [EnvCsr.allowed]

/-- `senvcfg` is every mode's above the user modes. -/
theorem EnvCsr.allowed_senvcfg_iff (p : Priv) (v : Bool) : EnvCsr.senvcfg.allowed p v = true ↔ p ≠ .user := by
  cases p <;> simp [EnvCsr.allowed]

/-- A write reaches `menvcfg` by its own two numbers alone. -/
theorem State.writeEnv_menvcfg_of_ne (s : State) {c : EnvCsr} (w : Word) (h : c ≠ .menvcfg) (hh : c ≠ .menvcfgh) :
    (s.writeEnv c w).menvcfg = s.menvcfg := by
  cases c
  case menvcfg => contradiction
  case menvcfgh => contradiction
  all_goals rfl

/-- A write reaches `henvcfg` by its own two numbers, and by `menvcfg`, which may lift the gate. -/
theorem State.writeEnv_henvcfg_of_ne (s : State) {c : EnvCsr} (w : Word) (hm : c ≠ .menvcfg) (h : c ≠ .henvcfg)
    (hh : c ≠ .henvcfgh) : (s.writeEnv c w).henvcfg = s.henvcfg := by
  cases c
  case menvcfg => contradiction
  case henvcfg => contradiction
  case henvcfgh => contradiction
  all_goals rfl

/-- A write reaches `senvcfg` by its own number, and by `menvcfg`, which may lift the gate. -/
theorem State.writeEnv_senvcfg_of_ne (s : State) {c : EnvCsr} (w : Word) (hm : c ≠ .menvcfg) (h : c ≠ .senvcfg) :
    (s.writeEnv c w).senvcfg = s.senvcfg := by
  cases c
  case menvcfg => contradiction
  case senvcfg => contradiction
  all_goals rfl

/-! ## The modes of an allowed write -/

section
variable {s : State} {c : EnvCsr} {w : Word}

theorem EnvCsr.allowed_of_envDenied (hd : s.envDenied c = none) : c.allowed s.priv s.v = true :=
  ((s.envDenied_eq_none_iff c).1 hd).2

theorem State.priv_of_writeEnv_menvcfg_ne (hd : s.envDenied c = none) (hne : (s.writeEnv c w).menvcfg ≠ s.menvcfg) :
    s.priv = .machine := by
  by_cases hc : c = .menvcfg ∨ c = .menvcfgh
  · exact (EnvCsr.allowed_menvcfg_iff hc _ _).1 (EnvCsr.allowed_of_envDenied hd)
  · rw [not_or] at hc
    exact absurd (s.writeEnv_menvcfg_of_ne w hc.1 hc.2) hne

theorem State.priv_of_writeEnv_henvcfg_ne (hd : s.envDenied c = none) (hne : (s.writeEnv c w).henvcfg ≠ s.henvcfg) :
    s.priv = .machine ∨ s.priv = .supervisor ∧ s.v = false := by
  by_cases hm : c = .menvcfg
  · exact .inl ((EnvCsr.allowed_menvcfg_iff (.inl hm) _ _).1 (EnvCsr.allowed_of_envDenied hd))
  · by_cases hc : c = .henvcfg ∨ c = .henvcfgh
    · exact (EnvCsr.allowed_henvcfg_iff hc _ _).1 (EnvCsr.allowed_of_envDenied hd)
    · rw [not_or] at hc
      exact absurd (s.writeEnv_henvcfg_of_ne w hm hc.1 hc.2) hne

theorem State.priv_of_writeEnv_senvcfg_ne (hd : s.envDenied c = none) (hne : (s.writeEnv c w).senvcfg ≠ s.senvcfg) :
    s.priv ≠ .user := by
  by_cases hm : c = .menvcfg
  · rw [(EnvCsr.allowed_menvcfg_iff (.inl hm) _ _).1 (EnvCsr.allowed_of_envDenied hd)]
    exact nofun
  · by_cases hc : c = .senvcfg
    · subst hc
      exact (EnvCsr.allowed_senvcfg_iff _ _).1 (EnvCsr.allowed_of_envDenied hd)
    · exact absurd (s.writeEnv_senvcfg_of_ne w hm hc) hne

end

/-- Settles O52: the chain of updates that a step is leaves the platform alone, so what changes is what the write before
it changes, whose mode the access check admits. -/
theorem onlyCsrWritesChangeTheEnvironment : Obligations.OnlyCsrWritesChangeTheEnvironment := by
  intro s t hstep
  rcases step_updates hstep with hu | ⟨bytes, op, imm, c, rd, f, w, hfetch, hdecode, hd, hu⟩
  · obtain ⟨htables, henv⟩ := hu.samePlatform
    obtain ⟨hm, hs, hh⟩ := id henv
    exact ⟨htables, .inl henv, (absurd hm ·), (absurd hh ·), (absurd hs ·)⟩
  · obtain ⟨htables, hm, hs, hh⟩ := hu.samePlatform
    rw [hm, hs, hh]
    exact ⟨(s.writeEnv_sameTables c w).trans htables, .inr ⟨bytes, op, imm, c, rd, f, hfetch, hdecode, hd⟩,
      State.priv_of_writeEnv_menvcfg_ne hd, State.priv_of_writeEnv_henvcfg_ne hd,
      State.priv_of_writeEnv_senvcfg_ne hd⟩

end Sys2Proof.Machine
end

section
/-! PROOFS, the family of 10_state.md, part 4: the register file, `ssp`, the gated `SSE` fields, and what an access to an
environment register does. -/

namespace Sys2Proof.Machine

open Sys2Proof.Config

/-! ## Registers and `ssp` -/

/-- The mask of all `XLEN` bits leaves a truncated value alone. -/
theorem State.trunc_and_trunc_allOnes (s : State) (w : Word) :
    s.trunc w &&& s.trunc (BitVec.allOnes 64) = s.trunc w := by
  apply BitVec.eq_of_getLsbD_eq
  intro i hi
  simp only [State.trunc, BitVec.getLsbD_and, truncTo_getLsbD, BitVec.getLsbD_allOnes, hi]
  cases decide (i < xlenBits s.cfg.xlen) <;> simp

/-- Every register reads as an `XLEN`-bit value. -/
theorem State.readX_and_trunc_allOnes (s : State) (r : RegIdx) :
    s.readX r &&& s.trunc (BitVec.allOnes 64) = s.readX r := by
  unfold State.readX
  split
  · simp
  · exact s.trunc_and_trunc_allOnes _

/-- Settles O14: by the laws of a read after a write; a read is a truncated value, and truncation is a mask. -/
theorem registerFileReadsBack : Obligations.RegisterFileReadsBack := by
  intro s r r' w
  exact ⟨s.readX_zero, s.writeX_readX_same r w, s.writeX_readX_other r r' w, fun _ => rfl,
    (s.writeX r w).readX_and_trunc_allOnes r'⟩

theorem xlenBits_le (x : Xlen) : xlenBits x ≤ 64 := by cases x <;> decide

theorem lt_xlenBits_of_lt {k : Nat} (x : Xlen) (h : k < 32) : k < xlenBits x := h.trans_le (by cases x <;> decide)

/-- Bit `k` of the mask of `ssp`'s writable bits (10 R13). -/
theorem sspMask_getLsbD (p : Params) {k : Nat} (hk : k < 64) :
    (sspMask p).getLsbD k = (!decide (k < 2) && !(decide (k = 2) && p.sspBit2RoZero)) := by
  have h7 := (by decide : ∀ i : Fin 64, (~~~7#64).getLsbD i = !decide (i.val < 3)) ⟨k, hk⟩
  have h3 := (by decide : ∀ i : Fin 64, (~~~3#64).getLsbD i = !decide (i.val < 2)) ⟨k, hk⟩
  simp only at h7 h3
  unfold sspMask
  cases p.sspBit2RoZero
  · rw [if_neg (by decide), h3, Bool.and_false, Bool.not_false, Bool.and_true]
  · rw [if_pos rfl, h7, Bool.and_true, ← Bool.not_or, ← Bool.decide_or]
    congr 2
    exact propext ⟨by omega, by omega⟩

theorem State.legalSsp_getLsbD (s : State) (w : Word) (k : Nat) :
    (s.legalSsp w).getLsbD k =
      (decide (k < xlenBits s.cfg.xlen) && !decide (k < 2) && !(decide (k = 2) && s.cfg.sspBit2RoZero) &&
        w.getLsbD k) := by
  rw [State.legalSsp, BitVec.getLsbD_and, State.trunc, truncTo_getLsbD]
  by_cases hk : k < xlenBits s.cfg.xlen
  · rw [sspMask_getLsbD _ (hk.trans_le (xlenBits_le _))]
    ac_rfl
  · simp [hk]

/-- Settles O13: `ssp` holds the legal value, bit by bit, and the write is an update of that field alone. -/
theorem sspWriteLegalises : Obligations.SspWriteLegalises := by
  intro s w k
  refine ⟨?_, fun _ => rfl, fun _ => rfl, rfl, .refl s, ?_⟩
  · rw [State.writeSsp_readSsp, State.legalSsp_getLsbD]
  · exact ⟨rfl, rfl, rfl, rfl, rfl, rfl, rfl, rfl, rfl, rfl, rfl⟩

/-! ## The `SSE` fields as read -/

section
variable {s : State}

theorem State.menvcfgSse_of_hasS (h : s.cfg.hasS = true) : s.menvcfgSse = s.menvcfg.getLsbD 3 := by
  simp [State.menvcfgSse, sseBit, h]

theorem State.menvcfgSse_of_not_hasS (h : s.cfg.hasS = false) : s.menvcfgSse = false := by
  simp [State.menvcfgSse, h]

theorem State.henvcfgSse_eq (s : State) : s.henvcfgSse = (s.menvcfgSse && s.henvcfg.getLsbD 3) := rfl

theorem State.senvcfgSse_false (s : State) : s.senvcfgSse false = (s.menvcfgSse && s.senvcfg.getLsbD 3) := rfl

theorem State.senvcfgSse_true (s : State) : s.senvcfgSse true = (s.henvcfgSse && s.senvcfg.getLsbD 3) := rfl

/-- Under the `menvcfg` gate every field reads zero (10 R19, R22). -/
theorem State.sse_of_menvcfgSse_false (h : s.menvcfgSse = false) :
    s.henvcfgSse = false ∧ ∀ v, s.senvcfgSse v = false := by
  have hh : s.henvcfgSse = false := by rw [s.henvcfgSse_eq, h, Bool.false_and]
  refine ⟨hh, fun v => ?_⟩
  cases v
  · rw [s.senvcfgSse_false, h, Bool.false_and]
  · rw [s.senvcfgSse_true, hh, Bool.false_and]

/-! ## `xSSE` (10 R24) -/

theorem State.xSSE_of_machine (h : s.priv = .machine) : s.xSSE = false := by
  simp [State.xSSE, h]

theorem State.xSSE_of_not_hasS (h : s.cfg.hasS = false) : s.xSSE = false := by
  simp [State.xSSE, h]

theorem State.xSSE_of_supervisor (hS : s.cfg.hasS = true) (h : s.priv = .supervisor) :
    s.xSSE = if s.v then s.henvcfgSse else s.menvcfgSse := by
  unfold State.xSSE
  cases hv : s.v <;> simp [hS, h]

theorem State.xSSE_of_user (hS : s.cfg.hasS = true) (h : s.priv = .user) : s.xSSE = s.senvcfgSse s.v := by
  simp [State.xSSE, hS, h]

end

/-- Settles O9: `xSSE` is the field the mode reads, and each field as read is its stored bit under its gates. -/
theorem xsseByModeAndStoredBits : Obligations.XsseByModeAndStoredBits := by
  intro s
  refine ⟨fun h => h.elim State.xSSE_of_machine State.xSSE_of_not_hasS, fun hS => ⟨?_, ?_, ?_, ?_⟩⟩ <;> intro hp hv
  · simp [State.xSSE_of_supervisor hS hp, hv, State.menvcfgSse_of_hasS hS]
  · simp [State.xSSE_of_supervisor hS hp, hv, s.henvcfgSse_eq, State.menvcfgSse_of_hasS hS]
  · simp [State.xSSE_of_user hS hp, hv, s.senvcfgSse_false, State.menvcfgSse_of_hasS hS]
  · simp [State.xSSE_of_user hS hp, hv, s.senvcfgSse_true, s.henvcfgSse_eq, State.menvcfgSse_of_hasS hS]

/-! ## What a CSR read returns -/

/-- Bit `k` of a register as a CSR read returns it: the stored bit, or the field as read. -/
theorem State.trunc_setSse_getLsbD (s : State) (r : BitVec 64) (b : Bool) {k : Nat} (hk : k < xlenBits s.cfg.xlen) :
    (s.trunc (setSse r b)).getLsbD k = if k = 3 then b else r.getLsbD k := by
  rw [State.trunc, truncTo_getLsbD, setSse_getLsbD _ _ _ (hk.trans_le (xlenBits_le _))]
  simp [hk]

/-- Bit 3 of what a CSR read returns is the `SSE` field as read (10 R22). -/
theorem State.readEnv_sse (s : State) :
    (s.readEnv .menvcfg).getLsbD 3 = s.menvcfgSse ∧ (s.readEnv .henvcfg).getLsbD 3 = s.henvcfgSse ∧
      (s.readEnv .senvcfg).getLsbD 3 = s.senvcfgSse s.v := by
  have h3 : 3 < xlenBits s.cfg.xlen := lt_xlenBits_of_lt _ (by decide)
  simp only [State.readEnv, s.trunc_setSse_getLsbD _ _ h3, if_true, and_self]

/-- Every other bit below `XLEN` reads as stored (log entry 13). -/
theorem State.readEnv_getLsbD (s : State) {k : Nat} (h3 : k ≠ 3) (hk : k < xlenBits s.cfg.xlen) :
    (s.readEnv .menvcfg).getLsbD k = s.menvcfg.getLsbD k ∧ (s.readEnv .henvcfg).getLsbD k = s.henvcfg.getLsbD k ∧
      (s.readEnv .senvcfg).getLsbD k = s.senvcfg.getLsbD k := by
  simp only [State.readEnv, s.trunc_setSse_getLsbD _ _ hk, if_neg h3, and_self]

/-- Settles O10: the field as read at bit 3, which no write to `menvcfg` moves without S-mode, and the stored bits
elsewhere. -/
theorem csrReadsShowTheGatedSse : Obligations.CsrReadsShowTheGatedSse := by
  intro s
  obtain ⟨hm, hh, hs⟩ := s.readEnv_sse
  refine ⟨fun hS => ?_, fun hS => ?_, fun k h3 hk => s.readEnv_getLsbD h3 hk, fun k => ?_⟩
  · have hgate := State.menvcfgSse_of_hasS hS
    rw [hm, hh, hs, s.henvcfgSse_eq, hgate]
    refine ⟨rfl, rfl, ?_⟩
    cases s.v
    · rw [s.senvcfgSse_false, hgate, if_neg (by decide)]
    · rw [s.senvcfgSse_true, s.henvcfgSse_eq, hgate, if_pos rfl]
  · have hgate := State.menvcfgSse_of_not_hasS hS
    obtain ⟨hh0, hs0⟩ := State.sse_of_menvcfgSse_false hgate
    refine ⟨hm.trans hgate, hh.trans hh0, hs.trans (hs0 _), fun w => ?_⟩
    obtain ⟨hmw, _⟩ := (s.writeEnv .menvcfg w).readEnv_sse
    exact hmw.trans (State.menvcfgSse_of_not_hasS (by rw [State.writeEnv_cfg, hS]))
  · exact ⟨BitVec.getLsbD_ushiftRight .., BitVec.getLsbD_ushiftRight ..⟩

/-! ## What a CSR write stores -/

/-- Bit `k` of a register after a write: the value's below `XLEN`, the old register's above. -/
theorem State.mergeEnv_getLsbD (s : State) (old : BitVec 64) (w : Word) {k : Nat} (hk : k < 64) :
    (s.mergeEnv old w).getLsbD k = if k < xlenBits s.cfg.xlen then w.getLsbD k else old.getLsbD k := by
  unfold State.mergeEnv
  cases s.cfg.xlen
  · exact withLowHalf_getLsbD old w k hk
  · exact (if_pos hk).symm

/-- Bit `k` of a register whose `SSE` field is written only where `gate` is open (10 R23). -/
theorem State.gatedWrite_getLsbD (s : State) (gate : Bool) (old : BitVec 64) (w : Word) {k : Nat} (hk : k < 64) :
    (if gate then s.mergeEnv old w else setSse (s.mergeEnv old w) (old.getLsbD sseBit)).getLsbD k =
      if k < xlenBits s.cfg.xlen ∧ (k = 3 → gate = true) then w.getLsbD k else old.getLsbD k := by
  cases gate
  · simp only [Bool.false_eq_true, if_false, setSse_getLsbD _ _ _ hk, s.mergeEnv_getLsbD old w hk, sseBit]
    by_cases h3 : k = 3 <;> simp [h3]
  · simp [s.mergeEnv_getLsbD old w hk]

theorem State.writeHenvcfg_getLsbD (s : State) (w : Word) {k : Nat} (hk : k < 64) :
    (s.writeHenvcfg w).henvcfg.getLsbD k =
      if k < xlenBits s.cfg.xlen ∧ (k = 3 → s.menvcfgSse = true) then w.getLsbD k else s.henvcfg.getLsbD k :=
  s.gatedWrite_getLsbD s.menvcfgSse s.henvcfg w hk

theorem State.writeSenvcfg_getLsbD (s : State) (w : Word) {k : Nat} (hk : k < 64) :
    (s.writeSenvcfg w).senvcfg.getLsbD k =
      if k < xlenBits s.cfg.xlen ∧ (k = 3 → (if s.v then s.henvcfgSse else s.menvcfgSse) = true) then w.getLsbD k
      else s.senvcfg.getLsbD k :=
  s.gatedWrite_getLsbD (if s.v then s.henvcfgSse else s.menvcfgSse) s.senvcfg w hk

@[simp] theorem State.writeHenvcfg_menvcfgSse (s : State) (w : Word) : (s.writeHenvcfg w).menvcfgSse = s.menvcfgSse :=
  rfl
@[simp] theorem State.writeSenvcfg_menvcfgSse (s : State) (w : Word) : (s.writeSenvcfg w).menvcfgSse = s.menvcfgSse :=
  rfl
@[simp] theorem State.writeSenvcfg_henvcfgSse (s : State) (w : Word) : (s.writeSenvcfg w).henvcfgSse = s.henvcfgSse :=
  rfl

/-- Settles O11: each write bit by bit; the gates are fields of registers that the write leaves alone. -/
theorem gatedSseIsReadOnly : Obligations.GatedSseIsReadOnly := by
  intro s w
  have h3 : 3 < xlenBits s.cfg.xlen := lt_xlenBits_of_lt _ (by decide)
  have hh3 := s.writeHenvcfg_getLsbD w (k := 3) (by decide)
  have hs3 := s.writeSenvcfg_getLsbD w (k := 3) (by decide)
  simp only [h3, true_and, forall_const] at hh3 hs3
  refine ⟨fun hm => ?_, fun hv hh => ⟨?_, ?_⟩, fun hm => ?_, fun hv hm => ?_, fun hv hh => ?_, fun k hk3 hk => ?_⟩
  · obtain ⟨hh, _⟩ := State.sse_of_menvcfgSse_false (s := s.writeHenvcfg w) (by simpa using hm)
    obtain ⟨_, hs⟩ := State.sse_of_menvcfgSse_false (s := s.writeSenvcfg w) (by simpa using hm)
    exact ⟨hh, hs⟩
  · rw [State.senvcfgSse_true, State.writeSenvcfg_henvcfgSse, hh, Bool.false_and]
  · rw [hs3, if_neg (by simp [hv, hh])]
  · rw [State.henvcfgSse_eq, State.writeHenvcfg_menvcfgSse, hm, Bool.true_and, hh3, if_pos hm]
  · rw [State.senvcfgSse_false, State.writeSenvcfg_menvcfgSse, hm, Bool.true_and, hs3, if_pos (by simp [hv, hm])]
  · rw [State.senvcfgSse_true, State.writeSenvcfg_henvcfgSse, hh, Bool.true_and, hs3, if_pos (by simp [hv, hh])]
  · have hk64 := hk.trans_le (xlenBits_le _)
    rw [s.writeHenvcfg_getLsbD w hk64, s.writeSenvcfg_getLsbD w hk64]
    simp [hk, hk3]

end Sys2Proof.Machine
end

section
/-! PROOFS, the family of 10_state.md, part 5: who may access an environment register, and what an access does. -/

namespace Sys2Proof.Machine

open Sys2Proof.Config

/-! ## The access check -/

section
variable (s : State)

theorem State.envDenied_menvcfg_iff : s.envDenied .menvcfg = none ↔ s.priv = .machine := by
  rw [s.envDenied_eq_none_iff, EnvCsr.allowed_menvcfg_iff (.inl rfl)]
  exact and_iff_right rfl

theorem State.envDenied_henvcfg_iff :
    s.envDenied .henvcfg = none ↔ s.cfg.hasH = true ∧ (s.priv = .machine ∨ s.priv = .supervisor ∧ s.v = false) := by
  rw [s.envDenied_eq_none_iff, EnvCsr.allowed_henvcfg_iff (.inl rfl)]
  rfl

theorem State.envDenied_senvcfg_iff : s.envDenied .senvcfg = none ↔ s.cfg.hasS = true ∧ s.priv ≠ .user := by
  rw [s.envDenied_eq_none_iff, EnvCsr.allowed_senvcfg_iff]
  rfl

theorem State.envDenied_menvcfgh_iff :
    s.envDenied .menvcfgh = none ↔ s.cfg.xlen = .rv32 ∧ s.envDenied .menvcfg = none := by
  rw [s.envDenied_eq_none_iff, s.envDenied_menvcfg_iff, EnvCsr.allowed_menvcfg_iff (.inr rfl)]
  simp [State.envExists]

theorem State.envDenied_henvcfgh_iff :
    s.envDenied .henvcfgh = none ↔ s.cfg.xlen = .rv32 ∧ s.envDenied .henvcfg = none := by
  rw [s.envDenied_eq_none_iff, s.envDenied_henvcfg_iff, EnvCsr.allowed_henvcfg_iff (.inr rfl)]
  simp only [State.envExists, Bool.and_eq_true, beq_iff_eq]
  tauto

/-- VS-mode's access to `henvcfg` raises virtual-instruction (92 D7). -/
theorem State.envDenied_henvcfg_vs (hH : s.cfg.hasH = true) (hp : s.priv = .supervisor) (hv : s.v = true) :
    s.envDenied .henvcfg = some .virtualInstruction := by
  simp [State.envDenied, State.envExists, EnvCsr.allowed, hH, hp, hv]

/-- A denied access raises illegal-instruction, or with `V` = 1 virtual-instruction. -/
theorem State.envDenied_exc {s : State} {c : EnvCsr} {e : Exc} (h : s.envDenied c = some e) :
    e = .illegalInstruction ∨ s.v = true ∧ e = .virtualInstruction := by
  unfold State.envDenied at h
  split at h
  · exact .inl (Option.some.inj h).symm
  · split at h
    · cases h
    · split at h
      next hv =>
        rw [Bool.and_eq_true] at hv
        exact .inr ⟨hv.1, (Option.some.inj h).symm⟩
      next => exact .inl (Option.some.inj h).symm

/-! ## The CSR instruction -/

theorem State.raiseInsn_wordTrap (e : Exc) (w : BitVec 32) : WordTrap s e w (s.raiseInsn e w) :=
  ⟨s.takeTrap_nothingWritten e _, s.takeTrap_taken e _⟩

theorem State.csrEnv_of_denied {c : EnvCsr} {e : Exc} (h : s.envDenied c = some e) (rd : RegIdx) (new : Option Word)
    (word : BitVec 32) : s.csrEnv c rd new word = s.raiseInsn e word := by
  simp only [State.csrEnv, h]

/-- The state after the write of a CSR instruction, if it writes, and before `x[rd]` receives the old value. -/
def State.envAfter (s : State) (c : EnvCsr) (new : Option Word) : State := new.elim s (s.writeEnv c)

theorem State.csrEnv_of_allowed {c : EnvCsr} (h : s.envDenied c = none) (rd : RegIdx) (new : Option Word)
    (word : BitVec 32) : s.csrEnv c rd new word = ((s.envAfter c new).writeX rd (s.readEnv c)).advance 4 := by
  simp only [State.csrEnv, h]
  cases new <;> rfl

theorem State.envAfter_frame (c : EnvCsr) (new : Option Word) :
    ∃ m se h d, s.envAfter c new = { s with menvcfg := m, senvcfg := se, henvcfg := h, draws := d } := by
  cases new with
  | none => exact ⟨s.menvcfg, s.senvcfg, s.henvcfg, s.draws, rfl⟩
  | some w => exact ⟨_, _, _, _, s.writeEnv_frame c w⟩

/-- The value a CSR read returns is an `XLEN`-bit one, a high half's too, which is read where `XLEN` is 32 and where it
is 64 fits as any value does. -/
theorem State.trunc_readEnv (c : EnvCsr) : s.trunc (s.readEnv c) = s.readEnv c := by
  have hhalf (r : Word) : s.trunc (r >>> 32) = r >>> 32 := by
    apply BitVec.eq_of_getLsbD_eq
    intro k _
    rw [State.trunc, truncTo_getLsbD, BitVec.getLsbD_ushiftRight]
    by_cases hk : k < 32
    · simp [lt_xlenBits_of_lt s.cfg.xlen hk]
    · simp [BitVec.getLsbD_of_ge r (32 + k) (by omega)]
  cases c
  case menvcfgh => exact hhalf _
  case henvcfgh => exact hhalf _
  all_goals exact s.trunc_trunc _

/-- What an allowed CSR instruction leaves: the old value in `x[rd]`, the environment registers and the counter of
draws as the write left them, and all else as it was but `pc`. -/
theorem State.envAfter_writeX_advance (c : EnvCsr) (new : Option Word) (rd : RegIdx) {t : State}
    (ht : t = ((s.envAfter c new).writeX rd (s.readEnv c)).advance 4) :
    ((rd ≠ 0 → t.readX rd = s.readEnv c) ∧ SameRegsBut rd s t ∧ t.readSsp = s.readSsp ∧ SameMemory s t ∧
      t.pc = s.pcAfter 4 ∧ SameTables s t ∧ SameTrapState { s with draws := t.draws } t) ∧
    SameEnv (s.envAfter c new) t ∧ t.draws = (s.envAfter c new).draws := by
  have hold := s.trunc_readEnv c
  generalize s.readEnv c = old at *
  obtain ⟨m, se, h, d, hu⟩ := s.envAfter_frame c new
  rw [hu] at ht ⊢
  subst ht
  refine ⟨⟨fun hrd => ?_, fun r hr => ?_, rfl, fun _ => rfl, rfl, .refl s, ?_⟩, ⟨rfl, rfl, rfl⟩, rfl⟩
  · rw [State.advance_readX, State.writeX_readX_same _ _ _ hrd]
    exact hold
  · rw [State.advance_readX, State.writeX_readX_other _ _ _ _ hr]
    rfl
  · exact ⟨rfl, rfl, rfl, rfl, rfl, rfl, rfl, rfl, rfl, rfl, rfl⟩

/-- What a CSR instruction writes, in the words of the statement and in the model's. -/
theorem envWritten_eq (op : CsrOp) (imm : Bool) (c : EnvCsr) (f : RegIdx) :
    envWritten s op imm c f = op.newValue (s.readEnv c) f (s.csrOperand imm f) := by
  cases op <;> rfl

/-! ## A write to `menvcfg` -/

variable {s} (w : Word)

/-- Setting the `SSE` field leaves every other bit alone. -/
theorem setSse_getLsbD_of_ne (r : BitVec 64) (b : Bool) {k : Nat} (h3 : k ≠ 3) :
    (setSse r b).getLsbD k = r.getLsbD k := by
  by_cases hk : k < 64
  · rw [setSse_getLsbD r b k hk, if_neg h3]
  · rw [BitVec.getLsbD_of_ge _ k (by omega), BitVec.getLsbD_of_ge _ k (by omega)]

theorem State.mergeEnv_sse (s : State) (old : BitVec 64) : (s.mergeEnv old w).getLsbD 3 = w.getLsbD 3 := by
  rw [s.mergeEnv_getLsbD old w (by decide), if_pos (lt_xlenBits_of_lt _ (by decide))]

/-- Where `SSE` is written 0 or was set before, a write to `menvcfg` changes that register alone. -/
theorem State.writeEnv_menvcfg_of_gate_kept (hS : s.cfg.hasS = true)
    (h : w.getLsbD 3 = false ∨ s.menvcfg.getLsbD 3 = true) :
    s.writeEnv .menvcfg w = { s with menvcfg := s.mergeEnv s.menvcfg w } := by
  have hgate : ¬((s.mergeEnv s.menvcfg w).getLsbD sseBit && !s.menvcfg.getLsbD sseBit) = true := by
    rw [sseBit, State.mergeEnv_sse]
    rcases h with h | h <;> rw [h] <;> simp
  simp only [State.writeEnv, State.writeMenvcfg, if_neg hgate, hS, Bool.not_true, Bool.false_eq_true, if_false]

/-- Where `SSE` is set again, the gated fields of the other two registers hold free values (10 R23, 92 D15). -/
theorem State.writeEnv_menvcfg_of_gate_lifted (hS : s.cfg.hasS = true) (hw : w.getLsbD 3 = true)
    (hm : s.menvcfg.getLsbD 3 = false) :
    s.writeEnv .menvcfg w =
      { s with
        menvcfg := s.mergeEnv s.menvcfg w
        henvcfg := setSse s.henvcfg (reenabledSse s.draws)
        senvcfg := setSse s.senvcfg (reenabledSse (s.draws + 1))
        draws := s.draws + 2 } := by
  have hgate : ((s.mergeEnv s.menvcfg w).getLsbD sseBit && !s.menvcfg.getLsbD sseBit) = true := by
    rw [sseBit, State.mergeEnv_sse, hw, hm]
    rfl
  simp only [State.writeEnv, State.writeMenvcfg, if_pos hgate, hS, Bool.not_true, Bool.false_eq_true, if_false]

/-- With S-mode a write to `menvcfg` stores its value below `XLEN`, and leaves the other two registers alone but for
their `SSE` fields. -/
theorem State.writeEnv_menvcfg_bits (hS : s.cfg.hasS = true) :
    (s.writeEnv .menvcfg w).menvcfg = s.mergeEnv s.menvcfg w ∧
      ∀ k, k ≠ 3 → (s.writeEnv .menvcfg w).henvcfg.getLsbD k = s.henvcfg.getLsbD k ∧
        (s.writeEnv .menvcfg w).senvcfg.getLsbD k = s.senvcfg.getLsbD k := by
  by_cases h : w.getLsbD 3 = false ∨ s.menvcfg.getLsbD 3 = true
  · rw [State.writeEnv_menvcfg_of_gate_kept w hS h]
    exact ⟨rfl, fun _ _ => ⟨rfl, rfl⟩⟩
  · simp only [not_or, Bool.not_eq_false, Bool.not_eq_true] at h
    rw [State.writeEnv_menvcfg_of_gate_lifted w hS h.1 h.2]
    exact ⟨rfl, fun k h3 => ⟨setSse_getLsbD_of_ne _ _ h3, setSse_getLsbD_of_ne _ _ h3⟩⟩

/-- `menvcfg.SSE` reads as it was written. -/
theorem State.writeEnv_menvcfg_sse (hS : s.cfg.hasS = true) : (s.writeEnv .menvcfg w).menvcfgSse = w.getLsbD 3 := by
  obtain ⟨hm, _⟩ := State.writeEnv_menvcfg_bits w hS
  rw [State.menvcfgSse_of_hasS (by rw [State.writeEnv_cfg, hS]), hm, State.mergeEnv_sse]

/-- Once written, `menvcfg.SSE` is `xSSE` of S-mode (10 R18). -/
theorem State.writeEnv_menvcfg_xSSE (hS : s.cfg.hasS = true) :
    ({ s.writeEnv .menvcfg w with priv := .supervisor, v := false } : State).xSSE = w.getLsbD 3 := by
  have hS' : (s.writeEnv .menvcfg w).cfg.hasS = true := by rw [State.writeEnv_cfg, hS]
  exact (State.xSSE_of_supervisor (s := { s.writeEnv .menvcfg w with priv := .supervisor, v := false }) hS' rfl).trans
    (State.writeEnv_menvcfg_sse w hS)

end

/-! ## Writes to the other registers -/

theorem State.writesItsHalf (s : State) : WritesItsHalf s := by
  intro w
  refine ⟨fun k hk => withHighHalf_getLsbD _ w k hk, fun k hk => withHighHalf_getLsbD _ w k hk, fun k hk hx => ⟨?_, ?_⟩,
    rfl, rfl, fun c hc => ?_, fun c hc hch => s.writeEnv_menvcfg_of_ne w hc hch,
    fun c hm hc hch => s.writeEnv_henvcfg_of_ne w hm hc hch, fun c hm hc => s.writeEnv_senvcfg_of_ne w hm hc⟩
  · exact (s.writeHenvcfg_getLsbD w hk).trans (if_neg fun h => absurd h.1 (by omega))
  · exact (s.writeSenvcfg_getLsbD w hk).trans (if_neg fun h => absurd h.1 (by omega))
  · cases c
    case menvcfg => contradiction
    all_goals rfl

/-! ## The statement -/

/-- What a CSR instruction on an environment register does: its trap where it is denied, and otherwise the old value in
`x[rd]` and the write of its form. -/
theorem State.execBase_csrEnv (s : State) (op : CsrOp) (imm : Bool) (c : EnvCsr) (rd f : RegIdx) {t : State}
    (ht : t = s.execBase (.csrEnv op imm c rd f)) :
    (∀ e, s.envDenied c = some e →
      (e = .illegalInstruction ∨ s.v = true ∧ e = .virtualInstruction) ∧
      WordTrap s e (BaseInstr.csrEnv op imm c rd f).word t) ∧
    (s.envDenied c = none →
      (rd ≠ 0 → t.readX rd = s.readEnv c) ∧ SameRegsBut rd s t ∧ t.readSsp = s.readSsp ∧ SameMemory s t ∧
      t.pc = s.pcAfter 4 ∧ SameTables s t ∧ SameTrapState { s with draws := t.draws } t ∧
      (envWritten s op imm c f = none → SameEnv s t ∧ t.draws = s.draws) ∧
      ∀ w, envWritten s op imm c f = some w → SameEnv (s.writeEnv c w) t ∧ t.draws = (s.writeEnv c w).draws) := by
  rw [State.execBase, ← envWritten_eq] at ht
  refine ⟨fun e he => ⟨State.envDenied_exc he, ?_⟩, fun hd => ?_⟩
  · rw [ht, s.csrEnv_of_denied he]
    exact s.raiseInsn_wordTrap e _
  · rw [s.csrEnv_of_allowed hd] at ht
    obtain ⟨⟨hrd, hregs, hssp, hmem, hpc, htables, htrap⟩, henv⟩ := s.envAfter_writeX_advance c _ rd ht
    refine ⟨hrd, hregs, hssp, hmem, hpc, htables, htrap, fun hw => ?_, fun w hw => ?_⟩ <;>
      rw [hw] at henv <;> exact henv

/-- Settles O12: the access check register by register, the CSR instruction, the write to `menvcfg` by its gate, and the
writes to the other registers bit by bit. -/
theorem environmentWritesByMode : Obligations.EnvironmentWritesByMode := by
  intro s
  refine ⟨s.envDenied_menvcfg_iff, s.envDenied_henvcfg_iff, s.envDenied_senvcfg_iff, s.envDenied_menvcfgh_iff,
    s.envDenied_henvcfgh_iff, s.envDenied_henvcfg_vs, fun op imm c rd f t ht => s.execBase_csrEnv op imm c rd f ht,
    fun w u hS hu => ?_, s.writesItsHalf⟩
  subst hu
  obtain ⟨hm, hkept⟩ := State.writeEnv_menvcfg_bits w hS
  have hsse := State.writeEnv_menvcfg_sse w hS
  refine ⟨fun k hk => ?_, hkept, fun hw => ?_, fun hw => ?_, fun h => ?_⟩
  · rw [hm, s.mergeEnv_getLsbD _ _ hk]
  · exact (State.writeEnv_menvcfg_xSSE w hS).trans hw
  · exact ⟨hsse.trans hw, State.sse_of_menvcfgSse_false (hsse.trans hw)⟩
  · rw [State.writeEnv_menvcfg_of_gate_kept w hS h]
    exact ⟨rfl, rfl⟩

end Sys2Proof.Machine
end

section
/-! PROOFS, the family of 20_memory.md, part 1: narrower views of a stored value, and the platform's checks over a range
of addresses. -/

namespace Sys2Proof.Machine

/-! ## Views of a stored value -/

/-- Bit `i` of what a load of `k` bytes sees `j` bytes into a store of `n`, where it lies within them (20 R42). -/
theorem Memory.load_store_getLsbD (m : Memory) (a : Nat) (w : Word) {j k n : Nat} (hjk : j + k ≤ n) {i : Nat}
    (hi : i < 64) :
    (Memory.load (Memory.store m a n w) (a + j) k).getLsbD i = (decide (i < 8 * k) && w.getLsbD (8 * j + i)) := by
  rw [Memory.load_getLsbD _ _ _ _ hi]
  by_cases hk : i < 8 * k
  · have hbit : 8 * (j + i / 8) + i % 8 = 8 * j + i := by omega
    rw [Nat.add_assoc, Memory.read_store_inside _ _ _ _ _ (by omega), BitVec.getLsbD_extractLsb', hbit]
    simp [Nat.mod_lt]
  · simp [hk]

/-- Settles O15: the bytes are those of a store, and each load is such a view, bit by bit. -/
theorem littleEndianViews : Obligations.LittleEndianViews := by
  intro m a w
  refine ⟨fun k hk => Memory.read_store_inside 8 m a w k hk, ?_, ?_, ?_⟩ <;> apply BitVec.eq_of_getLsbD_eq <;>
    intro i hi
  · have h := Memory.load_store_getLsbD m a w (j := 0) (k := 8) (n := 8) (by decide) hi
    simpa [hi] using h
  · have h := Memory.load_store_getLsbD m a w (j := 0) (k := 4) (n := 8) (by decide) hi
    simpa [hi] using h
  · have h := Memory.load_store_getLsbD m a w (j := 4) (k := 4) (n := 8) (by decide) hi
    rw [h, BitVec.getLsbD_ushiftRight]
    by_cases h32 : i < 32
    · simp [h32]
    · simp [h32, BitVec.getLsbD_of_ge w (32 + i) (by omega)]

/-! ## A check over a range asks every byte -/

/-- A check defined address by address holds over a range exactly if it holds at every address of it. -/
theorem rangeCheck_iff {ok : Nat → Bool} {okOver : Nat → Nat → Bool} (hzero : ∀ pa, okOver pa 0 = true)
    (hsucc : ∀ pa n, okOver pa (n + 1) = (ok pa && okOver (pa + 1) n)) (pa n : Nat) :
    okOver pa n = true ↔ ∀ k < n, ok (pa + k) = true := by
  induction n generalizing pa with
  | zero => simp [hzero]
  | succ n ih =>
    have hshift (k : Nat) : pa + 1 + k = pa + (k + 1) := by omega
    simp only [hsucc, Bool.and_eq_true, ih, hshift, Nat.forall_lt_succ_left, Nat.add_zero]

section
variable (pmp : List PmpRegion) (pma : List PmaRegion) (p : Priv) (pa n : Nat)

theorem pmpOver_r_iff : (pmpOver pmp p pa n).r = true ↔ ∀ k < n, (pmpAt pmp p (pa + k)).r = true :=
  rangeCheck_iff (okOver := fun pa n => (pmpOver pmp p pa n).r) (fun _ => rfl) (fun _ _ => rfl) pa n

theorem pmpOver_w_iff : (pmpOver pmp p pa n).w = true ↔ ∀ k < n, (pmpAt pmp p (pa + k)).w = true :=
  rangeCheck_iff (okOver := fun pa n => (pmpOver pmp p pa n).w) (fun _ => rfl) (fun _ _ => rfl) pa n

theorem pmaOver_idempotent_iff : (pmaOver pma pa n).1 = true ↔ ∀ k < n, (pmaAt pma (pa + k)).1 = true :=
  rangeCheck_iff (okOver := fun pa n => (pmaOver pma pa n).1) (fun _ => rfl) (fun _ _ => rfl) pa n

theorem pmaOver_amoswap_iff : (pmaOver pma pa n).2 = true ↔ ∀ k < n, (pmaAt pma (pa + k)).2 = true :=
  rangeCheck_iff (okOver := fun pa n => (pmaOver pma pa n).2) (fun _ => rfl) (fun _ _ => rfl) pa n

/-! ## The first region that holds an address answers for it -/

theorem inRange_eq (base size a : Nat) : inRange base size a = decide (base ≤ a ∧ a < base + size) := by
  simp [inRange]

theorem pmpAt_eq_find? :
    pmpAt pmp p pa = (pmp.find? fun r => decide (r.base ≤ pa ∧ pa < r.base + r.size)).elim Perm.none
      fun r => if p = .machine then r.machine else r.lower := by
  induction pmp with
  | nil => rfl
  | cons r rest ih =>
    rw [pmpAt, inRange_eq, ih, List.find?_cons]
    by_cases h : r.base ≤ pa ∧ pa < r.base + r.size <;> simp [h]

theorem pmaAt_eq_find? :
    pmaAt pma pa = (pma.find? fun r => decide (r.base ≤ pa ∧ pa < r.base + r.size)).elim (false, false)
      fun r => (r.idempotent, r.amoswap) := by
  induction pma with
  | nil => rfl
  | cons r rest ih =>
    rw [pmaAt, inRange_eq, ih, List.find?_cons]
    by_cases h : r.base ≤ pa ∧ pa < r.base + r.size <;> simp [h]

end

/-- Settles O22: each range check asks every byte, and a byte's answer is that of the first region found. -/
theorem platformChecksCoverEveryByte : Obligations.PlatformChecksCoverEveryByte := by
  intro pmp pma p pa n
  refine ⟨pmpOver_r_iff pmp p pa n, pmpOver_w_iff pmp p pa n, pmaOver_idempotent_iff pma pa n,
    pmaOver_amoswap_iff pma pa n, ?_, ?_⟩
  · rw [pmpAt_eq_find?]
    cases pmp.find? fun r => decide (r.base ≤ pa ∧ pa < r.base + r.size) <;> rfl
  · rw [pmaAt_eq_find?]
    cases pma.find? fun r => decide (r.base ≤ pa ∧ pa < r.base + r.size) <;> rfl

end Sys2Proof.Machine
end

section
/-! PROOFS, the family of 20_memory.md, part 2: the shadow-stack access check of R52. Each condition has a lemma that says
when it gives no fault and one that says which faults it can give; `State.placeFaults_cases` says once how the conditions
from (b) on hang together. -/

namespace Sys2Proof.Machine

open Sys2Proof.Config

/-! ## The conditions one by one -/

@[simp] theorem faultUnless_eq_nil_iff (ok : Bool) (e : Exc) : faultUnless ok e = [] ↔ ok = true := by
  cases ok <;> simp [faultUnless]

@[simp] theorem mem_faultUnless_iff (ok : Bool) (e e' : Exc) : e' ∈ faultUnless ok e ↔ ok = false ∧ e' = e := by
  cases ok <;> simp [faultUnless]

@[simp] theorem head?_faultUnless (ok : Bool) (e : Exc) :
    (faultUnless ok e).head? = if ok = false then some e else none := by
  cases ok <;> rfl

theorem aligned_iff (va : Word) (n : Nat) : aligned va n = true ↔ va.toNat % n = 0 := beq_iff_eq

theorem State.alignFaults_eq_nil_iff (s : State) (op : SsOp) (va : Word) (n : Nat) :
    s.alignFaults op va n = [] ↔ va.toNat % n = 0 := (faultUnless_eq_nil_iff _ _).trans (aligned_iff va n)

/-- The fault of a misaligned access (20 R44, R45), where the model decides it by a table and the pseudocode by a test. -/
theorem State.alignFaults_eq (s : State) (op : SsOp) (va : Word) (n : Nat) :
    s.alignFaults op va n = faultUnless (aligned va n)
      (if op = .amoSwap ∧ s.cfg.amoMisaligned = .addressMisaligned then .storeMisaligned else .storeAccessFault) := by
  unfold State.alignFaults
  cases op <;> cases s.cfg.amoMisaligned <;> rfl

theorem pageFaults_eq_nil_iff (page : PageType) : pageFaults page = [] ↔ page = .shadowStack := by
  cases page <;> simp [pageFaults]

theorem mem_pageFaults {page : PageType} {e : Exc} (h : e ∈ pageFaults page) :
    e = .storeAccessFault ∨ e = .storePageFault := by
  cases page
  case shadowStack => cases h
  case readOnly => exact .inr (List.mem_singleton.1 h)
  case writeExecute => simpa [pageFaults, or_comm] using h
  all_goals exact .inl (List.mem_singleton.1 h)

theorem gFaults_eq_nil_iff (g : Option Perm) : gFaults g = [] ↔ ∀ p, g = some p → p.r = true ∧ p.w = true := by
  cases g <;> simp [gFaults]

theorem mem_gFaults {g : Option Perm} {e : Exc} (h : e ∈ gFaults g) : e = .storeGuestPageFault := by
  cases g
  · cases h
  · exact ((mem_faultUnless_iff _ _ _).1 h).2

/-- `U` and `SUM` below M-mode (20 R54). -/
theorem State.userBitOk_iff (s : State) {p : Priv} (hp : p ≠ .machine) (v u : Bool) :
    s.userBitOk p v u = true ↔
      (p = .user → u = true) ∧ (p = .supervisor → u = true → s.sumBit v = true) := by
  cases p
  case user => simp [State.userBitOk]
  case supervisor => cases u <;> simp [State.userBitOk]
  case machine => contradiction

/-- A walk's failure is reported as a store/AMO fault, but for an implicit read, which is a load (20 R62, 60 R165). -/
theorem WalkFault.asStore_cases (f : WalkFault) :
    f.asStore = .storeAccessFault ∨ f.asStore = .storePageFault ∨ f.asStore = .storeGuestPageFault ∨
      f.asStore = .loadGuestPageFault ∧ f = .implicitGuestRead := by
  cases f <;> simp [WalkFault.asStore]

/-- A swap alone asks for AMOSwap support (20 R57). -/
theorem swapUnsupported_iff (op : SsOp) (amoswap : Bool) :
    (op != .amoSwap || amoswap) = false ↔ op = .amoSwap ∧ amoswap = false := by
  cases op <;> simp

/-! ## The conditions on the leaf -/

section
variable (s : State) (op : SsOp) (p : Priv) (v : Bool) (l : Leaf)

theorem State.leafFaults_eq_nil_iff :
    s.leafFaults op p v l = [] ↔
      l.page = .shadowStack ∧ s.userBitOk p v l.u = true ∧ (∀ g, l.g = some g → g.r = true ∧ g.w = true) ∧
        l.pmp.r = true ∧ l.pmp.w = true ∧ l.idempotent = true ∧ (op = .amoSwap → l.amoswap = true) := by
  have hswap : (op != .amoSwap || l.amoswap) = true ↔ (op = .amoSwap → l.amoswap = true) := by
    rw [← Bool.not_eq_false, swapUnsupported_iff, not_and, Bool.not_eq_false]
  simp only [State.leafFaults, List.append_eq_nil_iff, faultUnless_eq_nil_iff, pageFaults_eq_nil_iff,
    gFaults_eq_nil_iff, Bool.and_eq_true, hswap, and_assoc]

/-- Where the conditions after the page type hold, the page type alone decides. -/
theorem State.leafFaults_eq_pageFaults (hu : s.userBitOk p v l.u = true)
    (hg : ∀ g, l.g = some g → g.r = true ∧ g.w = true) (hr : l.pmp.r = true) (hw : l.pmp.w = true)
    (hi : l.idempotent = true) (ha : l.amoswap = true) : s.leafFaults op p v l = pageFaults l.page := by
  simp [State.leafFaults, (gFaults_eq_nil_iff _).2 hg, faultUnless, hu, hr, hw, hi, ha]

theorem State.mem_leafFaults {e : Exc} (h : e ∈ s.leafFaults op p v l) :
    e = .storeAccessFault ∨ e = .storePageFault ∨ e = .storeGuestPageFault := by
  simp only [State.leafFaults, List.mem_append, mem_faultUnless_iff] at h
  rcases h with ((((hpage | ⟨_, hu⟩) | hg) | ⟨_, hpmp⟩) | ⟨_, hidem⟩) | ⟨_, hswap⟩
  · exact (mem_pageFaults hpage).imp_right .inl
  · exact .inr (.inl hu)
  · exact .inr (.inr (mem_gFaults hg))
  · exact .inl hpmp
  · exact .inl hidem
  · exact .inl hswap

end

/-! ## The conditions together -/

section
variable (s : State) (op : SsOp) (va : Word) (n : Nat)

/-- Conditions (b) and (c) refuse the access alone; beyond them the walk's failure does, or its leaf decides. -/
theorem State.placeFaults_cases :
    ((s.effMode.1 = .machine ∨ s.isBare s.effMode.2 = true) ∧ s.placeFaults op va n = [.storeAccessFault]) ∨
    (s.effMode.1 ≠ .machine ∧ s.isBare s.effMode.2 = false) ∧
      ((∃ f, s.translate op.kind va n s.effMode.1 s.effMode.2 = .fault f ∧ s.placeFaults op va n = [f.asStore]) ∨
        ∃ l, s.translate op.kind va n s.effMode.1 s.effMode.2 = .leaf l ∧
          s.placeFaults op va n = s.leafFaults op s.effMode.1 s.effMode.2 l) := by
  unfold State.placeFaults
  by_cases hm : s.effMode.1 = .machine
  · simp [hm]
  · cases hb : s.isBare s.effMode.2
    · cases s.translate op.kind va n s.effMode.1 s.effMode.2 <;> simp [hm]
    · simp [hm]

variable {s op va n}

theorem State.ssFaults_of_aligned (ha : va.toNat % n = 0) : s.ssFaults op va n = s.placeFaults op va n := by
  rw [State.ssFaults, (s.alignFaults_eq_nil_iff op va n).2 ha, List.nil_append]

theorem State.ssFaults_of_fault (ha : va.toNat % n = 0) (hm : s.effMode.1 ≠ .machine)
    (hb : s.isBare s.effMode.2 = false) {f : WalkFault}
    (ht : s.translate op.kind va n s.effMode.1 s.effMode.2 = .fault f) : s.ssFaults op va n = [f.asStore] := by
  simp [State.ssFaults_of_aligned ha, State.placeFaults, hm, hb, ht]

theorem State.ssFaults_of_leaf (ha : va.toNat % n = 0) (hm : s.effMode.1 ≠ .machine)
    (hb : s.isBare s.effMode.2 = false) {l : Leaf}
    (ht : s.translate op.kind va n s.effMode.1 s.effMode.2 = .leaf l) :
    s.ssFaults op va n = s.leafFaults op s.effMode.1 s.effMode.2 l := by
  simp [State.ssFaults_of_aligned ha, State.placeFaults, hm, hb, ht]

theorem State.ssAddr_of_leaf {l : Leaf} (ht : s.translate op.kind va n s.effMode.1 s.effMode.2 = .leaf l) :
    s.ssAddr op va n = l.pa := by
  simp [State.ssAddr, ht]

variable (s op va n)

/-- No fault applies exactly if the access is aligned, made below M-mode with translation on, and its walk ends in a
leaf that gives none. -/
theorem State.ssFaults_eq_nil_iff :
    s.ssFaults op va n = [] ↔
      va.toNat % n = 0 ∧ s.effMode.1 ≠ .machine ∧ s.isBare s.effMode.2 = false ∧
        ∃ l, s.translate op.kind va n s.effMode.1 s.effMode.2 = .leaf l ∧
          s.leafFaults op s.effMode.1 s.effMode.2 l = [] := by
  constructor
  · intro h
    obtain ⟨halign, hplace⟩ := List.append_eq_nil_iff.1 h
    rcases s.placeFaults_cases op va n with ⟨_, hp⟩ | ⟨⟨hm, hb⟩, ⟨f, _, hp⟩ | ⟨l, ht, hp⟩⟩
    · cases hp.symm.trans hplace
    · cases hp.symm.trans hplace
    · exact ⟨(s.alignFaults_eq_nil_iff op va n).1 halign, hm, hb, l, ht, hp.symm.trans hplace⟩
  · rintro ⟨ha, hm, hb, l, ht, hl⟩
    exact (State.ssFaults_of_leaf ha hm hb ht).trans hl

end

/-! ## The effective mode -/

section
variable {s : State}

/-- Without `MPRV` in M-mode an explicit access is checked with the current mode (92 D27). -/
theorem State.effMode_of_current (h : s.priv ≠ .machine ∨ s.mstatus.mprv = false) : s.effMode = (s.priv, s.v) := by
  rcases h with h | h <;> simp [State.effMode, h]

/-- With `MPRV` in M-mode an explicit access is checked with the previous mode (92 D27, 43 R129). -/
theorem State.effMode_of_mprv (hp : s.priv = .machine) (h : s.mstatus.mprv = true) :
    s.effMode = (s.mstatus.mpp, s.mstatus.mpp != .machine && s.cfg.hasH && s.mstatus.mpv) := by
  simp [State.effMode, hp, h]

theorem State.isBare_iff (s : State) (v : Bool) :
    s.isBare v = true ↔ (if v then s.vsatpMode else s.satpMode) = .bare := beq_iff_eq

end

/-- Settles O16: condition by condition, the effective mode, `Bare` and `SUM` read from where R51 and R54 have them. -/
theorem shadowStackAccessConditions : Obligations.ShadowStackAccessConditions := by
  intro s
  refine ⟨State.effMode_of_current, fun hp hmprv => ?_, s.isBare_iff false, s.isBare_iff true, rfl, rfl,
    fun op va n => ?_⟩
  · rw [State.effMode_of_mprv hp hmprv]
    simp [and_assoc]
  · rw [s.ssFaults_eq_nil_iff]
    refine and_congr_right fun _ => and_congr_right fun hm => and_congr_right fun _ => exists_congr fun l =>
      and_congr_right fun ht => ?_
    rw [s.leafFaults_eq_nil_iff, s.userBitOk_iff hm, State.ssAddr_of_leaf ht]
    simp only [and_assoc, and_true]

/-! ## The order of the faults -/

/-- A chain of tests goes on where its last has failed. -/
theorem ite_some_or {α : Type} (c : Prop) [Decidable c] (a : α) (x y : Option α) :
    (if c then some a else x).or y = if c then some a else x.or y := by
  split <;> simp

theorem head?_pageFaults (page : PageType) :
    (pageFaults page).head? =
      if page = .readOnly ∨ page = .writeExecute then some .storePageFault
      else if page ≠ .shadowStack then some .storeAccessFault else none := by
  cases page <;> rfl

theorem head?_userFaults (s : State) {p : Priv} (hp : p ≠ .machine) (v u : Bool) (e : Exc) :
    (faultUnless (s.userBitOk p v u) e).head? =
      if p = .user ∧ u = false then some e
      else if p = .supervisor ∧ u = true ∧ s.sumBit v = false then some e else none := by
  cases p
  case user => simp [State.userBitOk]
  case supervisor => cases u <;> simp [State.userBitOk]
  case machine => contradiction

theorem head?_gFaults (g : Option Perm) :
    (gFaults g).head? = if ∃ p ∈ g, (p.r && p.w) = false then some .storeGuestPageFault else none := by
  cases g <;> simp [gFaults]

/-- The first fault of a leaf, in the order (e) to (j). -/
theorem State.head?_leafFaults (s : State) (op : SsOp) {p : Priv} (hp : p ≠ .machine) (v : Bool) (l : Leaf) :
    (s.leafFaults op p v l).head? =
      if l.page = .readOnly ∨ l.page = .writeExecute then some .storePageFault
      else if l.page ≠ .shadowStack then some .storeAccessFault
      else if p = .user ∧ l.u = false then some .storePageFault
      else if p = .supervisor ∧ l.u = true ∧ s.sumBit v = false then some .storePageFault
      else if ∃ g ∈ l.g, (g.r && g.w) = false then some .storeGuestPageFault
      else if (l.pmp.r && l.pmp.w) = false then some .storeAccessFault
      else if l.idempotent = false then some .storeAccessFault
      else if op = .amoSwap ∧ l.amoswap = false then some .storeAccessFault
      else none := by
  simp only [State.leafFaults, List.head?_append, head?_pageFaults, head?_userFaults s hp, head?_gFaults,
    head?_faultUnless, swapUnsupported_iff, ite_some_or, Option.none_or]

/-- The first fault that applies is what the pseudocode of R52 raises, step by step of its chain. -/
theorem State.head?_ssFaults (s : State) (op : SsOp) (va : Word) (n : Nat) :
    (s.ssFaults op va n).head? = ssFirstFault s op va n := by
  unfold ssFirstFault
  by_cases ha : va.toNat % n = 0
  case neg =>
    have halign : aligned va n = false := Bool.eq_false_iff.2 fun h => ha ((aligned_iff va n).1 h)
    rw [if_pos ha, State.ssFaults, s.alignFaults_eq, List.head?_append, head?_faultUnless, if_pos halign]
    rfl
  rw [if_neg (not_not_intro ha), State.ssFaults_of_aligned ha]
  rcases s.placeFaults_cases op va n with ⟨hmb, hp⟩ | ⟨⟨hm, hb⟩, ⟨f, ht, hp⟩ | ⟨l, ht, hp⟩⟩
  · rw [hp]
    rcases hmb with hm | hb
    · rw [if_pos hm]; rfl
    · rw [if_pos hb, ite_self]; rfl
  · rw [hp, if_neg hm, if_neg (by simp [hb]), ht]
    cases f <;> rfl
  · rw [hp, if_neg hm, if_neg (by simp [hb]), ht]
    exact s.head?_leafFaults op hm _ l

theorem State.reported_of_firstInOrder {s : State} (h : s.cfg.faultReport = .firstInOrder) (e : Exc) (es : List Exc) :
    s.reported e es = e := by
  simp [State.reported, h]

/-- Settles O17: the chain's first fault heads the list, and the list's head is what is reported in order. -/
theorem faultsFollowThePseudocode : Obligations.FaultsFollowThePseudocode := by
  intro s op va n
  refine ⟨s.head?_ssFaults op va n, fun e es horder hfaults => ?_⟩
  rw [← s.head?_ssFaults, hfaults, State.reported_of_firstInOrder horder]
  rfl

/-! ## What is reported and taken -/

theorem State.raiseAddr_addrTrap (s : State) (e : Exc) (va : Word) : AddrTrap s e va (s.raiseAddr e va) :=
  ⟨s.takeTrap_nothingWritten e _, s.takeTrap_taken e _⟩

/-- A refused shadow-stack access takes the reported fault; the draw made for the report is in no field of the frame. -/
theorem State.raiseSs_addrTrap (s : State) (e : Exc) (es : List Exc) (va : Word) :
    AddrTrap s (s.reported e es) va (s.raiseSs e es va) :=
  State.raiseAddr_addrTrap { s with draws := s.drawsAfter es } (s.reported e es) va

/-- Settles O18: an access goes on or raises, and what it raises is among the faults that apply. -/
theorem reportedFaultApplies : Obligations.ReportedFaultApplies := by
  intro s op va n go
  refine ⟨fun h => State.withSsAccess_pass h go, fun e es h => ⟨h ▸ s.reported_mem e es, ?_⟩⟩
  rw [State.withSsAccess_fail h]
  exact s.raiseSs_addrTrap e es va

/-! ## Which faults there are -/

/-- Settles O19: each condition's own faults; where the walk fails, its fault is the whole list. -/
theorem shadowStackFaultsAreStoreTyped : Obligations.ShadowStackFaultsAreStoreTyped := by
  refine ⟨⟨rfl, rfl, rfl⟩, fun s op va n => ⟨fun e he => ?_, fun ha hm hb =>
    ⟨State.ssFaults_of_fault ha hm hb, State.ssFaults_of_fault ha hm hb⟩⟩⟩
  rcases List.mem_append.1 he with halign | hplace
  · rw [s.alignFaults_eq, mem_faultUnless_iff] at halign
    obtain ⟨ha, rfl⟩ := halign
    have hmis : va.toNat % n ≠ 0 := fun h => by simp [(aligned_iff va n).2 h] at ha
    split
    next hswap => exact .inr (.inr (.inr (.inl ⟨rfl, hswap.1, hmis, hswap.2⟩)))
    next => exact .inl rfl
  · rcases s.placeFaults_cases op va n with ⟨_, hp⟩ | ⟨_, ⟨f, ht, hp⟩ | ⟨l, _, hp⟩⟩ <;> rw [hp] at hplace
    · exact .inl (List.mem_singleton.1 hplace)
    · rw [List.mem_singleton] at hplace
      subst hplace
      rcases f.asStore_cases with h | h | h | ⟨h, rfl⟩
      · exact .inl h
      · exact .inr (.inl h)
      · exact .inr (.inr (.inl h))
      · exact .inr (.inr (.inr (.inr ⟨h, ht⟩)))
    · rcases s.mem_leafFaults op _ _ l hplace with h | h | h
      · exact .inl h
      · exact .inr (.inl h)
      · exact .inr (.inr (.inl h))

/-- Settles O20: with every other condition met the page type's own faults are the list. -/
theorem leafTypeDecidesTheFault : Obligations.LeafTypeDecidesTheFault := by
  intro s op va n l ha hm hb ht hu hg hr hw hi hswap
  rw [State.ssFaults_of_leaf ha hm hb ht, s.leafFaults_eq_pageFaults op _ _ l hu hg hr hw hi hswap]
  refine ⟨fun h => ?_, fun h => ?_, fun h => ?_, fun h => ?_⟩
  · rw [h]; rfl
  · rw [h]; rfl
  · rcases h with h | h | h | h <;> rw [h] <;> rfl
  · rw [h]; rfl

end Sys2Proof.Machine
end

section
/-! PROOFS, the family of 20_memory.md, part 3: what a walk answers, and what an ordinary load, store or fetch makes of
it. -/

namespace Sys2Proof.Machine

open Sys2Proof.Config

/-! ## The tables -/

theorem findMapping_eq_find? (ms : List Mapping) (st : Stage) (kind : AccessKind) (a : Nat) :
    findMapping ms st kind a =
      ms.find? fun m => decide (m.stage = st ∧ kind ∈ m.kinds ∧ m.base ≤ a ∧ a < m.base + m.size) := by
  induction ms with
  | nil => rfl
  | cons m rest ih =>
    rw [findMapping, List.find?_cons, ih, inRange_eq]
    by_cases h : m.stage = st ∧ kind ∈ m.kinds ∧ m.base ≤ a ∧ a < m.base + m.size <;> simp [h, and_assoc]

/-- Where the SS encoding is defined, in the model's words and in the statement's (20 R49). -/
theorem State.ssEncodingDefined_eq (s : State) (v : Bool) : s.ssEncodingDefined v = ssEnables s v := by
  cases v <;> simp [State.ssEncodingDefined, ssEnables, State.henvcfgSse_eq, State.menvcfgSse, sseBit]

section
variable {s : State} {kind : AccessKind} {va : Word} {n : Nat} {p : Priv} {v : Bool} {m : Mapping}

theorem State.translate_of_unmapped
    (hm : findMapping s.mappings (if v then .vs else .single) kind va.toNat = none) :
    s.translate kind va n p v = .fault .page := by
  simp [State.translate, hm]

theorem State.translate_of_entryFault
    (hm : findMapping s.mappings (if v then .vs else .single) kind va.toNat = some m) {f : WalkFault}
    (he : m.entry = .fault f) : s.translate kind va n p v = .fault f := by
  simp [State.translate, hm, he]

/-- A leaf `010b` where the encoding is not defined is reserved (20 R49). -/
theorem State.translate_of_reservedLeaf
    (hm : findMapping s.mappings (if v then .vs else .single) kind va.toNat = some m) {u : Bool} {g : Perm} {base : Nat}
    (he : m.entry = .leaf .shadowStack u g base) (hdef : s.ssEncodingDefined v = false) :
    s.translate kind va n p v = .fault .page := by
  simp [State.translate, hm, he, hdef]

theorem State.translate_of_leaf
    (hm : findMapping s.mappings (if v then .vs else .single) kind va.toNat = some m) {page : PageType} {u : Bool}
    {g : Perm} {base : Nat} (he : m.entry = .leaf page u g base)
    (hdef : page ≠ .shadowStack ∨ s.ssEncodingDefined v = true) :
    s.translate kind va n p v =
      .leaf (s.leafAt page u (if s.gActive v then some g else none) (base + (va.toNat - m.base)) n p) := by
  rcases hdef with hdef | hdef <;> simp [State.translate, hm, he, hdef]

/-- The PMP and PMA fields of a leaf are the tables' answers for the bytes accessed (20 R50). -/
theorem State.leaf_of_translate {l : Leaf} (ht : s.translate kind va n p v = .leaf l) :
    l = s.leafAt l.page l.u l.g l.pa n p := by
  unfold State.translate at ht
  split at ht
  · cases ht
  · split at ht
    · cases ht
    · split at ht
      · cases ht
      · cases ht; rfl

end

/-- G-stage translation is active with `V` = 1 and `hgatp` not `Bare` (20 R55; log entry 27). -/
theorem State.gActive_iff (s : State) (v : Bool) : s.gActive v = true ↔ v = true ∧ s.hgatpMode = .paged := by
  simp [State.gActive]

/-! ## A byte of an ordinary access -/

theorem WalkFault.typed_eq (f : WalkFault) (kind : AccessKind) : f.typed kind = ordinaryExc kind f := by
  cases kind <;> cases f <;> rfl

/-- A G-stage leaf that may be written and not read grants nothing. -/
theorem State.gGrants_of_reserved (s : State) {g : Perm} (hr : g.r = false) (hw : g.w = true) (kind : AccessKind) :
    s.gGrants g kind = false := by
  simp [State.gGrants, Perm.reserved, hr, hw]

/-- A G-stage leaf that may be read grants a load. -/
theorem State.gGrants_load (s : State) {g : Perm} (hr : g.r = true) : s.gGrants g .load = true := by
  simp [State.gGrants, Perm.reserved, Perm.grants, hr]

section
variable {s : State} {kind : AccessKind} {p : Priv} {v : Bool} {va : Word} {l : Leaf} {g : Perm} {m : Mapping}
variable (hp : p ≠ .machine)
include hp

section
variable (hb : s.isBare v = false)
include hb

theorem State.ordinaryByte_of_walkFault {f : WalkFault} (ht : s.translate kind va 1 p v = .fault f) :
    s.ordinaryByte kind p v va = .error (f.typed kind) := by
  simp [State.ordinaryByte, hp, hb, ht]

variable (ht : s.translate kind va 1 p v = .leaf l)
include ht

theorem State.ordinaryByte_of_pageRefuses {e : Exc} (he : pageRefuses kind (s.mxrBit v) l.page = some e) :
    s.ordinaryByte kind p v va = .error e := by
  simp [State.ordinaryByte, hp, hb, ht, he]

variable (hpage : pageRefuses kind (s.mxrBit v) l.page = none)
include hpage

theorem State.ordinaryByte_of_userRefuses (hu : s.ordinaryUserOk kind p v l.u = false) :
    s.ordinaryByte kind p v va = .error (WalkFault.page.typed kind) := by
  simp [State.ordinaryByte, hp, hb, ht, hpage, hu]

variable (hu : s.ordinaryUserOk kind p v l.u = true)
include hu

theorem State.ordinaryByte_of_gRefuses (hl : l.g = some g) (hg : s.gGrants g kind = false) :
    s.ordinaryByte kind p v va = .error (WalkFault.guestPage.typed kind) := by
  simp [State.ordinaryByte, hp, hb, ht, hpage, hu, hl, hg]

theorem State.ordinaryByte_of_gGrants (hg : ∀ g, l.g = some g → s.gGrants g kind = true) :
    s.ordinaryByte kind p v va = s.pmpChecked kind p l.pa := by
  cases hl : l.g with
  | none => simp [State.ordinaryByte, hp, hb, ht, hpage, hu, hl]
  | some g => simp [State.ordinaryByte, hp, hb, ht, hpage, hu, hl, hg g hl]

end

section
variable (hb : s.isBare v = true) (ha : s.gActive v = true)
include hb ha

theorem State.ordinaryByte_of_gUnmapped (hm : findMapping s.mappings .gOnly kind va.toNat = none) :
    s.ordinaryByte kind p v va = .error (WalkFault.guestPage.typed kind) := by
  simp [State.ordinaryByte, hp, hb, ha, hm]

variable (hm : findMapping s.mappings .gOnly kind va.toNat = some m)
include hm

theorem State.ordinaryByte_of_gEntryFault {f : WalkFault} (he : m.entry = .fault f) :
    s.ordinaryByte kind p v va = .error (f.typed kind) := by
  simp [State.ordinaryByte, hp, hb, ha, hm, he]

theorem State.ordinaryByte_of_gLeafRefuses {page : PageType} {u : Bool} {base : Nat}
    (he : m.entry = .leaf page u g base) (hg : s.gGrants g kind = false) :
    s.ordinaryByte kind p v va = .error (WalkFault.guestPage.typed kind) := by
  simp [State.ordinaryByte, hp, hb, ha, hm, he, hg]

end

/-- A byte on a leaf whose G-stage entry grants nothing is refused, whatever refuses it first. -/
theorem State.ordinaryByte_refused_of_gRefuses (hb : s.isBare v = false)
    (ht : s.translate kind va 1 p v = .leaf l) (hl : l.g = some g) (hg : s.gGrants g kind = false) :
    ∃ e, s.ordinaryByte kind p v va = .error e := by
  cases hpage : pageRefuses kind (s.mxrBit v) l.page with
  | some e => exact ⟨e, State.ordinaryByte_of_pageRefuses hp hb ht hpage⟩
  | none =>
    cases hu : s.ordinaryUserOk kind p v l.u
    · exact ⟨_, State.ordinaryByte_of_userRefuses hp hb ht hpage hu⟩
    · exact ⟨_, State.ordinaryByte_of_gRefuses hp hb ht hpage hu hl hg⟩

theorem State.ordinaryByteFaults (s : State) (kind : AccessKind) (v : Bool) (va : Word) :
    OrdinaryByteFaults s kind p v va := by
  simp only [OrdinaryByteFaults, ← WalkFault.typed_eq]
  refine ⟨fun hb => ⟨fun f ht => State.ordinaryByte_of_walkFault hp hb ht, fun l g ht hl hr hw => ?_⟩,
    fun hb hv hpaged => ?_⟩
  · have hg := s.gGrants_of_reserved hr hw kind
    exact ⟨State.ordinaryByte_refused_of_gRefuses hp hb ht hl hg, fun hpage hu =>
      State.ordinaryByte_of_gRefuses hp hb ht hpage hu hl hg⟩
  · have ha := (s.gActive_iff v).2 ⟨hv, hpaged⟩
    exact ⟨State.ordinaryByte_of_gUnmapped hp hb ha, fun m hm =>
      ⟨fun f he => State.ordinaryByte_of_gEntryFault hp hb ha hm he, fun page u g base he hr hw =>
        State.ordinaryByte_of_gLeafRefuses hp hb ha hm he (s.gGrants_of_reserved hr hw kind)⟩⟩

/-- An ordinary load may read a byte of an SS page whatever `MXR` holds, where `U`, `SUM`, the G-stage and the PMP
permit reading it (20 R54, R58). -/
theorem State.ordinaryByte_load_shadowStack (hb : s.isBare v = false) (ht : s.translate .load va 1 p v = .leaf l)
    (hss : l.page = .shadowStack) (hu : s.userBitOk p v l.u = true) (hg : ∀ g, l.g = some g → g.r = true)
    (hr : l.pmp.r = true) : s.ordinaryByte .load p v va = .ok l.pa := by
  have hpage : pageRefuses .load (s.mxrBit v) l.page = none := by rw [hss]; rfl
  have hpmp : (pmpAt s.pmp p l.pa).r = true := by
    rw [State.leaf_of_translate ht] at hr
    exact (pmpOver_r_iff s.pmp p l.pa 1).1 hr 0 Nat.one_pos
  rw [State.ordinaryByte_of_gGrants hp hb ht hpage hu fun g hl => s.gGrants_load (hg g hl)]
  exact if_pos hpmp

end

/-! ## The bytes of an ordinary access -/

section
variable {s : State} {kind : AccessKind} {va : Word} {k n : Nat} {e : Exc}

/-- The first byte refused, those before it having passed, ends the access. -/
theorem State.ordinaryBytes_stops {p : Priv} {v : Bool} (hk : k < n)
    (hpass : ∀ j < k, ∃ a, s.ordinaryByte kind p v (s.byteAddr va j) = .ok a)
    (he : s.ordinaryByte kind p v (s.byteAddr va k) = .error e) :
    s.ordinaryBytes kind p v va n = .error (e, s.byteAddr va k) :=
  State.ordinaryBytes_error n va k hk hpass he

theorem State.memRead_stops (hk : k < n)
    (hpass : ∀ j < k, ∃ a, s.ordinaryByte .load s.effMode.1 s.effMode.2 (s.byteAddr va j) = .ok a)
    (he : s.ordinaryByte .load s.effMode.1 s.effMode.2 (s.byteAddr va k) = .error e) :
    s.memRead va n = .error (e, s.byteAddr va k) := by
  simp [State.memRead, State.ordinaryBytes_stops hk hpass he]

theorem State.memWrite_stops (w : Word) (hk : k < n)
    (hpass : ∀ j < k, ∃ a, s.ordinaryByte .store s.effMode.1 s.effMode.2 (s.byteAddr va j) = .ok a)
    (he : s.ordinaryByte .store s.effMode.1 s.effMode.2 (s.byteAddr va k) = .error e) :
    s.memWrite va n w = .error (e, s.byteAddr va k) := by
  simp [State.memWrite, State.ordinaryBytes_stops hk hpass he]

/-- A load whose every byte passes answers the bytes at their places, lowest first, and zero above them. -/
theorem State.memRead_bytes {pa : Nat → Nat}
    (hpass : ∀ k < n, s.ordinaryByte .load s.effMode.1 s.effMode.2 (s.byteAddr va k) = .ok (pa k)) :
    ∃ w, s.memRead va n = .ok w ∧
      ∀ k < 8, w.extractLsb' (8 * k) 8 = if k < n then Memory.read s.mem (pa k) else 0 := by
  refine ⟨joinBytes (((List.range n).map pa).map (Memory.read s.mem)), ?_, fun k hk => ?_⟩
  · simp only [State.memRead, State.ordinaryBytes_ok n va pa hpass]
  · rw [joinBytes_byte _ k hk]
    by_cases hkn : k < n <;> simp [hkn]

/-! ## The fetch -/

/-- The bytes of the second parcel are those after the first's. -/
theorem State.byteAddr_pcAfter (s : State) {m : Nat} (hm : m ≠ 0) (j : Nat) :
    s.byteAddr (s.pcAfter m) j = s.byteAddr s.pc (m + j) := by
  cases j with
  | zero => simp [State.byteAddr, hm, State.pcAfter]
  | succ j =>
    rw [State.byteAddr, State.byteAddr, if_neg (by omega), if_neg (by omega), State.pcAfter, State.trunc_add_trunc,
      BitVec.add_assoc, ← BitVec.ofNat_add]

/-- The fetch ends at the first byte refused of those it asks for: two, or four where the first parcel announces a
32-bit instruction (30 R80). -/
theorem State.fetch_stops {pa : Nat → Nat} (hk : k < 4)
    (hpass : ∀ j < k, s.ordinaryByte .fetch s.priv s.v (s.byteAddr s.pc j) = .ok (pa j))
    (hlong : 2 ≤ k → isLong (halfOfBytes (Memory.read s.mem (pa 0)) (Memory.read s.mem (pa 1))) = true)
    (he : s.ordinaryByte .fetch s.priv s.v (s.byteAddr s.pc k) = .error e) :
    s.fetch = .error (e, s.byteAddr s.pc k) := by
  by_cases h2 : k < 2
  · have hfirst : s.fetchParcel s.pc = .error (e, s.byteAddr s.pc k) :=
      State.ordinaryBytes_stops h2 (fun j hj => ⟨pa j, hpass j hj⟩) he
    simp [State.fetch, hfirst]
  · obtain ⟨j, rfl⟩ := Nat.exists_eq_add_of_le (Nat.le_of_not_lt h2)
    have hfirst : s.fetchParcel s.pc = .ok [pa 0, pa 1] :=
      State.ordinaryBytes_ok 2 s.pc pa fun i hi => hpass i (by omega)
    have haddr := s.byteAddr_pcAfter (m := 2) (by decide)
    have hsecond : s.fetchParcel (s.pcAfter 2) = .error (e, s.byteAddr (s.pcAfter 2) j) :=
      State.ordinaryBytes_stops (by omega) (fun i hi => ⟨pa (2 + i), by rw [haddr]; exact hpass _ (by omega)⟩)
        (by rw [haddr]; exact he)
    rw [haddr] at hsecond
    simp [State.fetch, hfirst, hsecond, hlong]

theorem step_of_fetch_error (h : s.fetch = .error (e, va)) : step s = .next (s.raiseAddr e va) := by
  simp only [step, h]

end

/-- An ordinary access ends in the exception of the first byte refused, with its address. -/
theorem State.ordinaryAccessStops (s : State) (kind : AccessKind) (va : Word) (k : Nat) (pa : Nat → Nat) (e : Exc)
    (hpass : ∀ j < k, s.ordinaryByte kind (accessMode s kind).1 (accessMode s kind).2 (s.byteAddr va j) = .ok (pa j))
    (he : s.ordinaryByte kind (accessMode s kind).1 (accessMode s kind).2 (s.byteAddr va k) = .error e) :
    OrdinaryAccessStops s kind va k pa e := by
  have hsome : ∀ j < k, ∃ a,
      s.ordinaryByte kind (accessMode s kind).1 (accessMode s kind).2 (s.byteAddr va j) = .ok a :=
    fun j hj => ⟨pa j, hpass j hj⟩
  cases kind
  case fetch =>
    rintro rfl hk hlong
    exact step_of_fetch_error (State.fetch_stops hk hpass hlong he)
  case load => exact fun n hk => State.memRead_stops hk hsome he
  case store => exact fun n w hk => State.memWrite_stops w hk hsome he
  all_goals trivial

/-- Settles O21: the tables' answer for a walk entry by entry, and the ordinary check byte by byte. -/
theorem shadowStackEncodingIsGated : Obligations.ShadowStackEncodingIsGated := by
  refine ⟨findMapping_eq_find?, fun s kind p v va hp => State.ordinaryByteFaults hp s kind v va,
    State.ordinaryAccessStops, fun s kind va n p v => ⟨State.translate_of_unmapped, fun m hm =>
      ⟨fun f he => State.translate_of_entryFault hm he, fun page u g base pa he hpa => ⟨fun hss hdis => ?_,
        fun hdef => ?_⟩⟩⟩⟩
  · subst hss
    exact State.translate_of_reservedLeaf hm he ((s.ssEncodingDefined_eq v).trans hdis)
  · rw [State.translate_of_leaf hm he (by rwa [s.ssEncodingDefined_eq]), ← hpa]
    simp only [State.leafAt, s.gActive_iff]

/-! ## Shadow stack pages -/

/-- Settles O8: the page type refuses the byte, and the fetch ends there. -/
theorem fetchFromShadowStackPageFaults : Obligations.FetchFromShadowStackPageFaults := by
  intro s k pa l hk hm hb hpass hlong ht hss
  have hbyte : s.ordinaryByte .fetch s.priv s.v (s.byteAddr s.pc k) = .error .instrAccessFault :=
    State.ordinaryByte_of_pageRefuses hm hb ht (by rw [hss]; rfl)
  exact ⟨_, step_of_fetch_error (State.fetch_stops hk hpass hlong hbyte), s.raiseAddr_addrTrap _ _⟩

/-- Settles O23: every byte passes, so the load answers them. -/
theorem loadsReadShadowStackPages : Obligations.LoadsReadShadowStackPages := by
  intro s va n l hm hb hbytes
  refine State.memRead_bytes fun k hk => ?_
  obtain ⟨ht, hss, hu, hg, hr⟩ := hbytes k hk
  exact State.ordinaryByte_load_shadowStack hm hb ht hss hu hg hr

/-- Settles O24: the page type refuses the byte, and the store ends there. -/
theorem ordinaryStoresToShadowStackFault : Obligations.OrdinaryStoresToShadowStackFault := by
  intro s va n k w l hk hm hb hpass ht hss
  exact State.memWrite_stops w hk hpass (State.ordinaryByte_of_pageRefuses hm hb ht (by rw [hss]; rfl))

end Sys2Proof.Machine
end

section
/-! PROOFS, the family of 20_memory.md, part 4: what the base instructions of the spec's programs do. Each of their five
shapes (add, load, store, branch, jump) has one lemma; the instructions are those shapes at their own operands. -/

namespace Sys2Proof.Machine

/-! ## Frames -/

theorem SameTrapState.refl (s : State) : SameTrapState s s :=
  ⟨rfl, rfl, rfl, rfl, rfl, rfl, rfl, rfl, rfl, rfl, rfl⟩

theorem SameRest.refl (s : State) : SameRest s s := ⟨.refl s, .refl s⟩

/-- A register write followed by the advance of `pc` writes that register alone. -/
theorem State.onlyWrites_writeX_advance (s : State) (rd : RegIdx) (w : Word) (n : Nat) :
    OnlyWrites s rd (s.trunc w) n ((s.writeX rd w).advance n) :=
  ⟨s.writeX_readX_same rd w, fun r hr => s.writeX_readX_other rd r w hr, rfl, fun _ => rfl, rfl, .refl s⟩

theorem State.onlyJumps_pc (s : State) (pc : Word) : OnlyJumps s pc { s with pc := pc } :=
  ⟨⟨fun _ => rfl, rfl, fun _ => rfl, .refl s⟩, .refl s, rfl⟩

/-! ## Operands -/

/-- The place of an offset's bits in a compressed form is a multiplication by 8. -/
theorem stackOff_eq (off : BitVec 6) : stackOff off = off.setWidth 64 * 8 :=
  BitVec.shiftLeft_eq_mul_twoPow _ 3

/-- Bit 0 of a branch's offset is not encoded. -/
theorem branchOff_eq (off : BitVec 12) : sextImm off <<< 1 = off.signExtend 64 * 2 :=
  BitVec.shiftLeft_eq_mul_twoPow _ 1

/-- A register holds an `XLEN`-bit value. -/
@[simp] theorem State.trunc_readX (s : State) (r : RegIdx) : s.trunc (s.readX r) = s.readX r := by
  unfold State.readX
  split
  · exact truncTo_zero _
  · exact s.trunc_trunc _

/-! ## The shapes -/

section
variable {s : State} {b : BaseInstr}

theorem State.baseLoads_of_loadTo {rd : RegIdx} {va : Word} {k n : Nat} {ext : Word → Word}
    (hb : s.execBase b = s.loadTo rd va k ext n) : BaseLoads s b rd va k ext n := by
  unfold BaseLoads
  rw [hb]
  constructor
  · intro w hw
    have hload : s.loadTo rd va k ext n = (s.writeX rd (ext w)).advance n := by simp only [State.loadTo, hw]
    exact hload ▸ s.onlyWrites_writeX_advance rd (ext w) n
  · intro e a he
    have hload : s.loadTo rd va k ext n = s.raiseAddr e a := by simp only [State.loadTo, he]
    exact hload ▸ s.raiseAddr_addrTrap e a

theorem State.baseStores_of_storeFrom {va w : Word} {n : Nat} (hb : s.execBase b = s.storeFrom va 8 w n) :
    BaseStores s b va w n := by
  unfold BaseStores
  rw [hb]
  constructor
  · intro as has
    have hstore : s.storeFrom va 8 w n = ({ s with mem := s.mem.scatter as w } : State).advance n := by
      simp only [State.storeFrom, State.memWrite, has]
    rw [hstore]
    exact ⟨State.ordinaryBytes_length 8 has, fun hd k a ha => Memory.read_scatter_nth as s.mem w k a hd ha,
      fun a ha => Memory.read_scatter_other as s.mem w a ha, fun _ => rfl, rfl, rfl, .refl s⟩
  · intro e a he
    have hstore : s.storeFrom va 8 w n = s.raiseAddr e a := by simp only [State.storeFrom, State.memWrite, he]
    exact hstore ▸ s.raiseAddr_addrTrap e a

end

section
variable (s : State)

theorem State.branchEq_onlyJumps (rs1 rs2 : RegIdx) (off : Word) :
    OnlyJumps s (if s.readX rs1 = s.readX rs2 then s.trunc (s.pc + off) else s.pcAfter 4) (s.branchEq rs1 rs2 off) := by
  unfold State.branchEq
  split
  · exact s.onlyJumps_pc _
  · exact s.onlyJumps_pc _

theorem State.jumpTo_readX_onlyJumps (r : RegIdx) : OnlyJumps s (s.readX r &&& ~~~1#64) (s.jumpTo (s.readX r)) := by
  have htarget : s.trunc (s.readX r &&& ~~~1#64) = s.readX r &&& ~~~1#64 :=
    (truncTo_and _ _ _).trans (congrArg (· &&& ~~~1#64) (s.trunc_readX r))
  exact htarget ▸ s.onlyJumps_pc _

end

/-- Settles O60: each instruction is one of the shapes. -/
theorem baseInstructionsHaveTheirListedEffect : Obligations.BaseInstructionsHaveTheirListedEffect := by
  intro s
  refine ⟨fun rd rs1 imm => s.onlyWrites_writeX_advance rd _ 4, fun rd imm => s.onlyWrites_writeX_advance rd _ 2,
    fun rd rs1 imm => State.baseLoads_of_loadTo rfl, fun rd rs1 imm => State.baseLoads_of_loadTo rfl,
    fun rd off => ?_, fun rs2 rs1 imm => State.baseStores_of_storeFrom rfl, fun rs2 off => ?_, fun rs1 rs2 off => ?_,
    s.jumpTo_readX_onlyJumps 1, s.jumpTo_readX_onlyJumps, s.raiseInsn_wordTrap _ _⟩
  · rw [← stackOff_eq]
    exact State.baseLoads_of_loadTo rfl
  · rw [← stackOff_eq]
    exact State.baseStores_of_storeFrom rfl
  · rw [← branchOff_eq]
    exact s.branchEq_onlyJumps rs1 rs2 _

end Sys2Proof.Machine
end

section
/-! PROOFS, the family of 30_encoding.md, part 1: an instruction word is its fields. A format of the encoder is a chain of
fields joined by `++`; that a word is one of the format is the same as that each field of the word is the one joined
(`append_eq_extractLsb'_iff`, once per `++`). The lemma of each format serves both the decoder, which knows the word, and
the encoder, which knows the fields. -/

namespace Sys2Proof.Machine

open BitVec (extractLsb'_append_eq_left extractLsb'_append_eq_right extractLsb'_append_extractLsb'_eq_extractLsb'
  extractLsb'_eq_self)

/-! ## Fields -/

section
variable {N : Nat} (w : BitVec N)

theorem extractLsb'_extractLsb' (s m i k : Nat) (h : i + k ≤ m) :
    (w.extractLsb' s m).extractLsb' i k = w.extractLsb' (s + i) k := by
  apply BitVec.eq_of_getLsbD_eq
  intro j hj
  have hm : i + j < m := by omega
  simp [hj, hm, Nat.add_assoc]

theorem extractLsb'_ushiftRight (s i k : Nat) : (w >>> s).extractLsb' i k = w.extractLsb' (s + i) k := by
  apply BitVec.eq_of_getLsbD_eq
  intro j hj
  simp [hj, Nat.add_assoc]

variable {w}

/-- Two values joined are a field of a word exactly when they are the two parts of that field. -/
theorem append_eq_extractLsb'_iff {m n k : Nat} {x : BitVec m} {y : BitVec n} :
    x ++ y = w.extractLsb' k (m + n) ↔ x = w.extractLsb' (k + n) m ∧ y = w.extractLsb' k n := by
  constructor
  · intro h
    constructor
    · rw [← extractLsb'_extractLsb' w k (m + n) n m (by omega), ← h, extractLsb'_append_eq_left]
    · rw [← Nat.add_zero k, ← extractLsb'_extractLsb' w k (m + n) 0 n (by omega), ← h, extractLsb'_append_eq_right]
  · rintro ⟨rfl, rfl⟩
    exact extractLsb'_append_extractLsb'_eq_extractLsb' rfl

/-- One bit is a field of width 1. -/
theorem ofBool_eq_extractLsb'_iff {b : Bool} {k : Nat} : BitVec.ofBool b = w.extractLsb' k 1 ↔ b = w.getLsbD k := by
  have hbit : w.extractLsb' k 1 = BitVec.ofBool (w.getLsbD k) := by
    apply BitVec.eq_of_getLsbD_eq
    intro i hi
    obtain rfl : i = 0 := by omega
    simp
  rw [hbit, BitVec.ofBool_eq_iff_eq]

end

section
variable {w : BitVec 32}

theorem fieldFunct7_eq : fieldFunct7 w = (fieldFunct12 w).extractLsb' 5 7 :=
  (extractLsb'_extractLsb' w 20 12 5 7 (by decide)).symm

/-! ## The formats of the opcode table -/

theorem encodeI_eq_iff {imm : BitVec 12} {rs1 rd : RegIdx} {funct3 : BitVec 3} {opcode : BitVec 7} :
    encodeI imm rs1 funct3 rd opcode = w ↔
      imm = fieldFunct12 w ∧ rs1 = fieldRs1 w ∧ funct3 = fieldFunct3 w ∧ rd = fieldRd w ∧ opcode = fieldOpcode w := by
  conv_lhs => rw [← extractLsb'_eq_self (x := w), encodeI]
  iterate 4 rw [append_eq_extractLsb'_iff]
  simp only [and_assoc]
  rfl

theorem encodeMopR_eq_iff {rd rs1 : RegIdx} : encodeMopR rd rs1 = w ↔
    funct12MopR28 = fieldFunct12 w ∧ rs1 = fieldRs1 w ∧ 0b100 = fieldFunct3 w ∧ rd = fieldRd w ∧
      opcodeSystem = fieldOpcode w :=
  encodeI_eq_iff

theorem encodeCsrSsp_eq_iff {funct3 : BitVec 3} {rd rs1 : RegIdx} : encodeCsrSsp funct3 rd rs1 = w ↔
    csrSspNumber = fieldFunct12 w ∧ rs1 = fieldRs1 w ∧ funct3 = fieldFunct3 w ∧ rd = fieldRd w ∧
      opcodeSystem = fieldOpcode w :=
  encodeI_eq_iff

theorem encodeMopRr_eq_iff {rd rs1 rs2 : RegIdx} : encodeMopRr rd rs1 rs2 = w ↔
    funct7MopRr7 = fieldFunct7 w ∧ rs2 = fieldRs2 w ∧ rs1 = fieldRs1 w ∧ 0b100 = fieldFunct3 w ∧ rd = fieldRd w ∧
      opcodeSystem = fieldOpcode w := by
  conv_lhs => rw [← extractLsb'_eq_self (x := w), encodeMopRr]
  iterate 5 rw [append_eq_extractLsb'_iff]
  simp only [and_assoc]
  rfl

theorem encodeAmo_eq_iff {funct3 : BitVec 3} {rd rs2 rs1 : RegIdx} {aq rl : Bool} :
    encodeAmo funct3 rd rs2 rs1 aq rl = w ↔
      funct5SsAmoSwap = fieldFunct5 w ∧ aq = fieldAq w ∧ rl = fieldRl w ∧ rs2 = fieldRs2 w ∧ rs1 = fieldRs1 w ∧
        funct3 = fieldFunct3 w ∧ rd = fieldRd w ∧ opcodeAmo = fieldOpcode w := by
  conv_lhs => rw [← extractLsb'_eq_self (x := w), encodeAmo]
  iterate 7 rw [append_eq_extractLsb'_iff]
  simp only [ofBool_eq_extractLsb'_iff, and_assoc]
  rfl

end

end Sys2Proof.Machine
end

section
/-! PROOFS, the family of 30_encoding.md, part 2: the bytes of an instruction as they lie in memory, and what the two
decoders make of them. Each length is decoded through one lemma, and the `cases` lemmas say where what is accepted came
from. -/

namespace Sys2Proof.Machine

open BitVec (extractLsb'_append_extractLsb'_eq_extractLsb' extractLsb'_eq_self)

/-! ## Bytes and words -/

section
variable (w : BitVec 32)

theorem bytesOfWord_two : bytesOfWord 2 w = [w.extractLsb' 0 8, w.extractLsb' 8 8] := by
  simp [bytesOfWord, extractLsb'_ushiftRight]

theorem bytesOfWord_four :
    bytesOfWord 4 w = [w.extractLsb' 0 8, w.extractLsb' 8 8, w.extractLsb' 16 8, w.extractLsb' 24 8] := by
  simp [bytesOfWord, extractLsb'_ushiftRight]

theorem halfOfBytes_extractLsb' (k : Nat) :
    halfOfBytes (w.extractLsb' k 8) (w.extractLsb' (k + 8) 8) = w.extractLsb' k 16 :=
  extractLsb'_append_extractLsb'_eq_extractLsb' rfl

theorem wordOfBytes_extractLsb' :
    wordOfBytes (w.extractLsb' 0 8) (w.extractLsb' 8 8) (w.extractLsb' 16 8) (w.extractLsb' 24 8) = w := by
  rw [wordOfBytes, halfOfBytes_extractLsb' w 0, halfOfBytes_extractLsb' w 16]
  exact BitVec.extractLsb'_append_extractLsb' (w := 16) (len := 16) (x := w)

end

section
variable (b0 b1 b2 b3 : Byte)

theorem bytesOfWord_halfOfBytes : bytesOfWord 2 ((0 : BitVec 16) ++ halfOfBytes b0 b1) = [b0, b1] := by
  generalize hw : (0 : BitVec 16) ++ halfOfBytes b0 b1 = w
  rw [← extractLsb'_eq_self (x := w), append_eq_extractLsb'_iff, halfOfBytes, append_eq_extractLsb'_iff] at hw
  obtain ⟨-, rfl, rfl⟩ := hw
  exact bytesOfWord_two w

theorem bytesOfWord_wordOfBytes : bytesOfWord 4 (wordOfBytes b0 b1 b2 b3) = [b0, b1, b2, b3] := by
  generalize hw : wordOfBytes b0 b1 b2 b3 = w
  rw [← extractLsb'_eq_self (x := w), wordOfBytes, append_eq_extractLsb'_iff, halfOfBytes, halfOfBytes,
    append_eq_extractLsb'_iff, append_eq_extractLsb'_iff] at hw
  obtain ⟨⟨rfl, rfl⟩, rfl, rfl⟩ := hw
  exact bytesOfWord_four w

end

/-! ## The length rule (30 R80) -/

/-- The two low bits of a word are those of its first parcel. -/
theorem isLong_low_iff (w : BitVec 32) : isLong (w.extractLsb' 0 16) = true ↔ w.extractLsb' 0 2 = 0b11 := by
  rw [isLong, extractLsb'_extractLsb' w 0 16 0 2 (by decide)]
  exact beq_iff_eq

/-! ## The decoder of the opcode table -/

/-- What `decode` makes of the answer of `decode32` or `decode16`, `rest` being the bytes after the instruction. -/
def decodedOf (rest : List Byte) : Except Reject Instr → Decoded
  | .ok i => .ok i rest
  | .error why => .reject why

section
variable {active : Bool}

theorem decode_bytesOfWord_four {w : BitVec 32} (hlow : w.extractLsb' 0 2 = 0b11) (rest : List Byte) :
    decode active (bytesOfWord 4 w ++ rest) = decodedOf rest (decode32 active w) := by
  have hlong : isLong (w.extractLsb' 0 16) = true := (isLong_low_iff w).2 hlow
  simp only [bytesOfWord_four, List.cons_append, List.nil_append, decode, halfOfBytes_extractLsb' w 0, if_pos hlong,
    wordOfBytes_extractLsb']
  cases decode32 active w <;> rfl

theorem decode_bytesOfWord_two {w : BitVec 32} (hlow : w.extractLsb' 0 2 ≠ 0b11) (rest : List Byte) :
    decode active (bytesOfWord 2 w ++ rest) = decodedOf rest (decode16 active (w.extractLsb' 0 16)) := by
  have hshort : ¬isLong (w.extractLsb' 0 16) = true := fun h => hlow ((isLong_low_iff w).1 h)
  simp only [bytesOfWord_two, List.cons_append, List.nil_append, decode, halfOfBytes_extractLsb' w 0, if_neg hshort]
  cases decode16 active (w.extractLsb' 0 16) <;> rfl

/-- An accepted instruction was read from a word by `decode32` or from a halfword by `decode16`. -/
theorem decode_ok_cases {bytes rest : List Byte} {i : Instr} (h : decode active bytes = .ok i rest) :
    (∃ w, bytes = bytesOfWord 4 w ++ rest ∧ decode32 active w = .ok i) ∨
      ∃ half, bytes = bytesOfWord 2 ((0 : BitVec 16) ++ half) ++ rest ∧ decode16 active half = .ok i := by
  unfold decode at h
  split at h
  next b0 b1 tail =>
    split at h
    · split at h
      next b2 b3 tail' =>
        split at h
        next j hj =>
          cases h
          exact .inl ⟨wordOfBytes b0 b1 b2 b3, by rw [bytesOfWord_wordOfBytes]; rfl, hj⟩
        next => cases h
      next => cases h
    · split at h
      next j hj =>
        cases h
        exact .inr ⟨halfOfBytes b0 b1, by rw [bytesOfWord_halfOfBytes]; rfl, hj⟩
      next => cases h
  next => cases h

end

/-! ## The base decoder -/

section
variable {xlen : Config.Xlen}

theorem decodeBase_bytesOfWord_four {w : BitVec 32} (hlow : w.extractLsb' 0 2 = 0b11) :
    decodeBase xlen (bytesOfWord 4 w) = decodeBase32 xlen w := by
  have hlong : isLong (w.extractLsb' 0 16) = true := (isLong_low_iff w).2 hlow
  simp only [bytesOfWord_four, decodeBase, halfOfBytes_extractLsb' w 0, if_pos hlong, wordOfBytes_extractLsb']

theorem decodeBase_bytesOfWord_two {w : BitVec 32} (hlow : w.extractLsb' 0 2 ≠ 0b11) :
    decodeBase xlen (bytesOfWord 2 w) = decodeBase16 xlen (w.extractLsb' 0 16) := by
  have hshort : ¬isLong (w.extractLsb' 0 16) = true := fun h => hlow ((isLong_low_iff w).1 h)
  simp only [bytesOfWord_two, decodeBase, halfOfBytes_extractLsb' w 0, if_neg hshort]

/-- An accepted base instruction was read from a word by `decodeBase32` or from a halfword by `decodeBase16`. -/
theorem decodeBase_cases {bytes : List Byte} {b : BaseInstr} (h : decodeBase xlen bytes = some b) :
    (∃ w, bytes = bytesOfWord 4 w ∧ decodeBase32 xlen w = some b) ∨
      ∃ half, bytes = bytesOfWord 2 ((0 : BitVec 16) ++ half) ∧ decodeBase16 xlen half = some b := by
  unfold decodeBase at h
  split at h
  next b0 b1 =>
    split at h
    · cases h
    · exact .inr ⟨_, (bytesOfWord_halfOfBytes b0 b1).symm, h⟩
  next b0 b1 b2 b3 =>
    split at h
    · exact .inl ⟨_, (bytesOfWord_wordOfBytes b0 b1 b2 b3).symm, h⟩
    · cases h
  next => cases h

end

end Sys2Proof.Machine
end

section
/-! PROOFS, the family of 30_encoding.md, part 3: the decoder of the opcode table and the encoder are inverse to each
other. `IsReading` says what an accepted word and its instruction owe each other; it is proved of what each part of the
decoder answers, and conversely each reading is what the decoder answers. -/

namespace Sys2Proof.Machine

/-- The instruction `i` is what the `n` bytes of the word `w` mean with `xSSE` = `active`. -/
structure IsReading (active : Bool) (n : Nat) (w : BitVec 32) (i : Instr) : Prop where
  word : encodeWord i = w
  length : ilen i = n
  wellFormed : WellFormed i = true
  readsUnder : ReadsUnder active i = true

/-! ## The words with two meanings (30 R87) -/

section
variable (active : Bool) (rd rs1 rs2 : RegIdx)

theorem readsUnder_mopRr7_iff : ReadsUnder active (.mopRr7 rd rs1 rs2) = true ↔
    (active && rd == 0 && rs1 == 0 && rs2 == 1) = false ∧ (active && rd == 0 && rs1 == 0 && rs2 == 5) = false := by
  rw [ReadsUnder, Bool.and_or_distrib_left, Bool.not_eq_true', Bool.or_eq_false_iff]

theorem readsUnder_mopR28_iff : ReadsUnder active (.mopR28 rd rs1) = true ↔
    (active && rd == 0 && rs1 == 1) = false ∧ (active && rd == 0 && rs1 == 5) = false ∧
      (active && rd != 0 && rs1 == 0) = false := by
  simp only [ReadsUnder, Bool.and_or_distrib_left, ← Bool.and_assoc, Bool.not_eq_true', Bool.or_eq_false_iff, and_assoc]

/-! ## What the decoder accepts is a reading -/

theorem decodeMopRr7_isReading :
    IsReading active 4 (encodeMopRr rd rs1 rs2) (decodeMopRr7 active rd rs1 rs2) := by
  unfold decodeMopRr7
  split_ifs with h1 h5
  · simp only [Bool.and_eq_true, beq_iff_eq] at h1
    obtain ⟨⟨⟨rfl, rfl⟩, rfl⟩, rfl⟩ := h1
    exact ⟨rfl, rfl, rfl, rfl⟩
  · simp only [Bool.and_eq_true, beq_iff_eq] at h5
    obtain ⟨⟨⟨rfl, rfl⟩, rfl⟩, rfl⟩ := h5
    exact ⟨rfl, rfl, rfl, rfl⟩
  · rw [Bool.not_eq_true] at h1 h5
    exact ⟨rfl, rfl, rfl, (readsUnder_mopRr7_iff ..).2 ⟨h1, h5⟩⟩

theorem decodeMopR28_isReading : IsReading active 4 (encodeMopR rd rs1) (decodeMopR28 active rd rs1) := by
  unfold decodeMopR28
  split_ifs with h1 h5 h0
  · simp only [Bool.and_eq_true, beq_iff_eq] at h1
    obtain ⟨⟨rfl, rfl⟩, rfl⟩ := h1
    exact ⟨rfl, rfl, rfl, rfl⟩
  · simp only [Bool.and_eq_true, beq_iff_eq] at h5
    obtain ⟨⟨rfl, rfl⟩, rfl⟩ := h5
    exact ⟨rfl, rfl, rfl, rfl⟩
  · simp only [Bool.and_eq_true, beq_iff_eq] at h0
    obtain ⟨⟨rfl, hrd⟩, rfl⟩ := h0
    exact ⟨rfl, rfl, hrd, rfl⟩
  · rw [Bool.not_eq_true] at h1 h5 h0
    exact ⟨rfl, rfl, rfl, (readsUnder_mopR28_iff ..).2 ⟨h1, h5, h0⟩⟩

theorem decodeCsrSsp_isReading {funct3 : BitVec 3} {i : Instr} (h : decodeCsrSsp funct3 rd rs1 = .ok i) :
    IsReading active 4 (encodeCsrSsp funct3 rd rs1) i := by
  unfold decodeCsrSsp at h
  split_ifs at h <;> cases h <;> subst_vars <;> exact ⟨rfl, rfl, rfl, rfl⟩

end

/-- Each accepting branch of the decoder has found the fields of its format. -/
theorem decode32_isReading {active : Bool} {w : BitVec 32} {i : Instr} (h : decode32 active w = .ok i) :
    IsReading active 4 w i := by
  unfold decode32 at h
  split_ifs at h with hop h3 h7 h12 h12 hop h5 h3 h3
  · cases h
    have hr := decodeMopRr7_isReading active (fieldRd w) (fieldRs1 w) (fieldRs2 w)
    rwa [encodeMopRr_eq_iff.2 ⟨h7.symm, rfl, rfl, h3.symm, rfl, hop.symm⟩] at hr
  · cases h
    have hr := decodeMopR28_isReading active (fieldRd w) (fieldRs1 w)
    rwa [encodeMopR_eq_iff.2 ⟨h12.symm, rfl, h3.symm, rfl, hop.symm⟩] at hr
  · have hr := decodeCsrSsp_isReading active _ _ h
    rwa [encodeCsrSsp_eq_iff.2 ⟨h12.symm, rfl, rfl, rfl, hop.symm⟩] at hr
  · cases h
    exact ⟨encodeAmo_eq_iff.2 ⟨h5.symm, rfl, rfl, rfl, rfl, h3.symm, rfl, hop.symm⟩, rfl, rfl, rfl⟩
  · cases h
    exact ⟨encodeAmo_eq_iff.2 ⟨h5.symm, rfl, rfl, rfl, rfl, h3.symm, rfl, hop.symm⟩, rfl, rfl, rfl⟩

theorem decode16_isReading {active : Bool} {h : BitVec 16} {i : Instr} (hd : decode16 active h = .ok i) :
    IsReading active 2 ((0 : BitVec 16) ++ h) i := by
  unfold decode16 at hd
  split_ifs at hd with h1 ha h5 ha
  · cases hd; exact ⟨h1 ▸ rfl, rfl, rfl, ha⟩
  · cases hd; exact ⟨h1 ▸ rfl, rfl, rfl, by simpa [ReadsUnder] using ha⟩
  · cases hd; exact ⟨h5 ▸ rfl, rfl, rfl, ha⟩
  · cases hd; exact ⟨h5 ▸ rfl, rfl, rfl, by simpa [ReadsUnder] using ha⟩

/-! ## A reading is what the decoder answers -/

section
variable (active : Bool) (rd rs1 rs2 : RegIdx)

theorem decode32_encodeMopRr :
    decode32 active (encodeMopRr rd rs1 rs2) = .ok (decodeMopRr7 active rd rs1 rs2) := by
  generalize hw : encodeMopRr rd rs1 rs2 = w
  obtain ⟨h7, rfl, rfl, h3, rfl, hop⟩ := encodeMopRr_eq_iff.1 hw
  rw [decode32, if_pos hop.symm, if_pos h3.symm, if_pos h7.symm]

theorem decode32_encodeMopR : decode32 active (encodeMopR rd rs1) = .ok (decodeMopR28 active rd rs1) := by
  generalize hw : encodeMopR rd rs1 = w
  obtain ⟨h12, rfl, h3, rfl, hop⟩ := encodeMopR_eq_iff.1 hw
  have h7 : fieldFunct7 w ≠ funct7MopRr7 := by rw [fieldFunct7_eq, ← h12]; decide
  rw [decode32, if_pos hop.symm, if_pos h3.symm, if_neg h7, if_pos h12.symm]

theorem decode32_encodeCsrSsp {funct3 : BitVec 3} (h : funct3 ≠ 0b100) :
    decode32 active (encodeCsrSsp funct3 rd rs1) = decodeCsrSsp funct3 rd rs1 := by
  generalize hw : encodeCsrSsp funct3 rd rs1 = w
  obtain ⟨h12, rfl, rfl, rfl, hop⟩ := encodeCsrSsp_eq_iff.1 hw
  rw [decode32, if_pos hop.symm, if_neg h, if_pos h12.symm]

theorem decode32_encodeAmo (funct3 : BitVec 3) (aq rl : Bool) :
    decode32 active (encodeAmo funct3 rd rs2 rs1 aq rl) =
      if funct3 = 0b010 then .ok (.ssamoswapW rd rs2 rs1 aq rl)
      else if funct3 = 0b011 then .ok (.ssamoswapD rd rs2 rs1 aq rl)
      else .error .otherAmoWidth := by
  generalize hw : encodeAmo funct3 rd rs2 rs1 aq rl = w
  obtain ⟨h5, rfl, rfl, rfl, rfl, rfl, rfl, hop⟩ := encodeAmo_eq_iff.1 hw
  have hsys : fieldOpcode w ≠ opcodeSystem := by rw [← hop]; decide
  rw [decode32, if_neg hsys, if_pos hop.symm, if_pos h5.symm]

variable {active rd rs1 rs2}

theorem decodeMopRr7_of_readsUnder (h : ReadsUnder active (.mopRr7 rd rs1 rs2) = true) :
    decodeMopRr7 active rd rs1 rs2 = .mopRr7 rd rs1 rs2 := by
  obtain ⟨h1, h5⟩ := (readsUnder_mopRr7_iff ..).1 h
  simp only [decodeMopRr7, h1, h5, Bool.false_eq_true, if_false]

theorem decodeMopR28_of_readsUnder (h : ReadsUnder active (.mopR28 rd rs1) = true) :
    decodeMopR28 active rd rs1 = .mopR28 rd rs1 := by
  obtain ⟨h1, h5, h0⟩ := (readsUnder_mopR28_iff ..).1 h
  simp only [decodeMopR28, h1, h5, h0, Bool.false_eq_true, if_false]

end

/-- The word of each 32-bit instruction, format by format. -/
theorem decode32_of_isReading {active : Bool} {w : BitVec 32} {i : Instr} (h : IsReading active 4 w i) :
    decode32 active w = .ok i := by
  obtain ⟨rfl, hlen, hwf, hr⟩ := h
  cases i with
  | cSspushX1 | cSspopchkX5 | cMop1 | cMop5 => cases hlen
  | sspushX1 | sspushX5 =>
    cases hr
    exact decode32_encodeMopRr ..
  | sspopchkX1 | sspopchkX5 =>
    cases hr
    exact decode32_encodeMopR ..
  | ssrdp rd =>
    cases hr
    have hrd : rd ≠ 0#5 := bne_iff_ne.1 hwf
    exact (decode32_encodeMopR ..).trans (by simp [decodeMopR28, hrd])
  | ssamoswapW | ssamoswapD => exact decode32_encodeAmo ..
  | mopRr7 => exact (decode32_encodeMopRr ..).trans (congrArg _ (decodeMopRr7_of_readsUnder hr))
  | mopR28 => exact (decode32_encodeMopR ..).trans (congrArg _ (decodeMopR28_of_readsUnder hr))
  | csrrwSsp | csrrsSsp | csrrcSsp | csrrwiSsp | csrrsiSsp | csrrciSsp =>
    exact decode32_encodeCsrSsp _ _ _ (by decide)

theorem decode16_of_isReading {active : Bool} {w : BitVec 32} {i : Instr} (h : IsReading active 2 w i) :
    decode16 active (w.extractLsb' 0 16) = .ok i := by
  obtain ⟨rfl, hlen, -, hr⟩ := h
  cases i with
  | cSspushX1 | cSspopchkX5 => cases hr; rfl
  | cMop1 | cMop5 =>
    obtain rfl : active = false := by simpa [ReadsUnder] using hr
    rfl
  | _ => cases hlen

/-! ## The round trips -/

/-- The per-instruction lemmas on lengths, gathered. -/
theorem length_statement (i : Instr) : Laws.Length.Statement i := by
  cases i with
  | sspushX1 => exact Laws.Length.sspushX1
  | sspushX5 => exact Laws.Length.sspushX5
  | cSspushX1 => exact Laws.Length.cSspushX1
  | sspopchkX1 => exact Laws.Length.sspopchkX1
  | sspopchkX5 => exact Laws.Length.sspopchkX5
  | cSspopchkX5 => exact Laws.Length.cSspopchkX5
  | ssrdp rd => exact Laws.Length.ssrdp rd
  | ssamoswapW rd rs2 rs1 aq rl => exact Laws.Length.ssamoswapW rd rs2 rs1 aq rl
  | ssamoswapD rd rs2 rs1 aq rl => exact Laws.Length.ssamoswapD rd rs2 rs1 aq rl
  | mopRr7 rd rs1 rs2 => exact Laws.Length.mopRr7 rd rs1 rs2
  | mopR28 rd rs1 => exact Laws.Length.mopR28 rd rs1
  | cMop1 => exact Laws.Length.cMop1
  | cMop5 => exact Laws.Length.cMop5
  | csrrwSsp rd rs1 => exact Laws.Length.csrrwSsp rd rs1
  | csrrsSsp rd rs1 => exact Laws.Length.csrrsSsp rd rs1
  | csrrcSsp rd rs1 => exact Laws.Length.csrrcSsp rd rs1
  | csrrwiSsp rd uimm => exact Laws.Length.csrrwiSsp rd uimm
  | csrrsiSsp rd uimm => exact Laws.Length.csrrsiSsp rd uimm
  | csrrciSsp rd uimm => exact Laws.Length.csrrciSsp rd uimm

/-- Settles O3: an instruction is a reading of its own word, which the decoder of its length answers. -/
theorem decodeInvertsEncode : Obligations.DecodeInvertsEncode := by
  intro i active rest hwf hr
  obtain ⟨-, hlen, hlow⟩ := length_statement i
  rcases hlen with h2 | h4
  · have hshort : (encodeWord i).extractLsb' 0 2 ≠ 0b11 := fun h => by rw [hlow.1 h] at h2; cases h2
    rw [encode, h2, decode_bytesOfWord_two hshort, decode16_of_isReading ⟨rfl, h2, hwf, hr⟩]
    rfl
  · rw [encode, h4, decode_bytesOfWord_four (hlow.2 h4), decode32_of_isReading ⟨rfl, h4, hwf, hr⟩]
    rfl

/-- Settles O4: what is accepted is a reading of the word or halfword it came from. -/
theorem encodeInvertsDecode : Obligations.EncodeInvertsDecode := by
  intro active bytes i rest h
  rcases decode_ok_cases h with ⟨w, hbytes, hd⟩ | ⟨half, hbytes, hd⟩
  · obtain ⟨hword, hlen, hwf, hr⟩ := decode32_isReading hd
    exact ⟨by rw [encode, hword, hlen, hbytes], hwf, hr⟩
  · obtain ⟨hword, hlen, hwf, hr⟩ := decode16_isReading hd
    exact ⟨by rw [encode, hword, hlen, hbytes], hwf, hr⟩

end Sys2Proof.Machine
end

section
/-! PROOFS, the family of 30_encoding.md, part 4: the base decoder and the encoder of the base instructions are inverse to
each other, and no word is both a base instruction's and one of the opcode table's. The words and halfwords of the base
are fields too, so each format has the lemma of part 1. -/

namespace Sys2Proof.Machine

open Sys2Proof.Config
open BitVec (extractLsb'_append_eq_right extractLsb'_append_eq_of_add_le extractLsb'_eq_self)

/-! ## Codes -/

theorem csrOpOf_eq_some_iff {funct3 : BitVec 3} {op : CsrOp} {imm : Bool} :
    csrOpOf funct3 = some (op, imm) ↔ op.funct3 imm = funct3 := by
  constructor
  · intro h
    unfold csrOpOf at h
    split_ifs at h <;> cases h <;> subst_vars <;> rfl
  · rintro rfl
    cases op <;> cases imm <;> rfl

theorem envCsrOf_eq_some_iff {n : BitVec 12} {c : EnvCsr} : envCsrOf n = some c ↔ c.number = n := by
  constructor
  · intro h
    unfold envCsrOf at h
    simpa using List.find?_some h
  · rintro rfl
    cases c <;> rfl

/-! ## Formats beside those of the opcode table -/

section
variable {w : BitVec 32}

theorem fieldStoreImm_eq_iff {imm : BitVec 12} : fieldStoreImm w = imm ↔
    w.extractLsb' 25 7 = imm.extractLsb' 5 7 ∧ w.extractLsb' 7 5 = imm.extractLsb' 0 5 := by
  conv_lhs => rw [← extractLsb'_eq_self (x := imm)]
  exact append_eq_extractLsb'_iff

theorem fieldBranchOff_eq_iff {off : BitVec 12} : fieldBranchOff w = off ↔
    w.extractLsb' 31 1 = off.extractLsb' 11 1 ∧ w.extractLsb' 7 1 = off.extractLsb' 10 1 ∧
      w.extractLsb' 25 6 = off.extractLsb' 4 6 ∧ w.extractLsb' 8 4 = off.extractLsb' 0 4 := by
  conv_lhs => rw [← extractLsb'_eq_self (x := off), fieldBranchOff]
  iterate 3 rw [append_eq_extractLsb'_iff]
  simp only [and_assoc]

theorem word_sd_eq_iff {rs2 rs1 : RegIdx} {imm : BitVec 12} : (BaseInstr.sd rs2 rs1 imm).word = w ↔
    fieldStoreImm w = imm ∧ rs2 = fieldRs2 w ∧ rs1 = fieldRs1 w ∧ 0b011 = fieldFunct3 w ∧
      opcodeStore = fieldOpcode w := by
  rw [fieldStoreImm_eq_iff]
  conv_lhs => rw [← extractLsb'_eq_self (x := w), BaseInstr.word]
  iterate 5 rw [append_eq_extractLsb'_iff]
  constructor
  · rintro ⟨⟨⟨⟨⟨hhi, hrs2⟩, hrs1⟩, h3⟩, hlo⟩, hop⟩
    exact ⟨⟨hhi.symm, hlo.symm⟩, hrs2, hrs1, h3, hop⟩
  · rintro ⟨⟨hhi, hlo⟩, hrs2, hrs1, h3, hop⟩
    exact ⟨⟨⟨⟨⟨hhi.symm, hrs2⟩, hrs1⟩, h3⟩, hlo.symm⟩, hop⟩

theorem word_beq_eq_iff {rs1 rs2 : RegIdx} {off : BitVec 12} : (BaseInstr.beq rs1 rs2 off).word = w ↔
    fieldBranchOff w = off ∧ rs2 = fieldRs2 w ∧ rs1 = fieldRs1 w ∧ 0b000 = fieldFunct3 w ∧
      opcodeBranch = fieldOpcode w := by
  rw [fieldBranchOff_eq_iff]
  conv_lhs => rw [← extractLsb'_eq_self (x := w), BaseInstr.word]
  iterate 7 rw [append_eq_extractLsb'_iff]
  constructor
  · rintro ⟨⟨⟨⟨⟨⟨⟨h11, h4⟩, hrs2⟩, hrs1⟩, h3⟩, h0⟩, h10⟩, hop⟩
    exact ⟨⟨h11.symm, h10.symm, h4.symm, h0.symm⟩, hrs2, hrs1, h3, hop⟩
  · rintro ⟨⟨h11, h10, h4, h0⟩, hrs2, hrs1, h3, hop⟩
    exact ⟨⟨⟨⟨⟨⟨⟨h11.symm, h4.symm⟩, hrs2⟩, hrs1⟩, h3⟩, h0.symm⟩, h10.symm⟩, hop⟩

end

/-! ## The compressed formats -/

section
variable {h : BitVec 16}

theorem word_cAddi_eq_iff {rd : RegIdx} {imm : BitVec 6} : (BaseInstr.cAddi rd imm).word = (0 : BitVec 16) ++ h ↔
    h.extractLsb' 0 2 = 0b01 ∧ h.extractLsb' 13 3 = 0b000 ∧ halfRd h = rd ∧
      h.extractLsb' 12 1 ++ h.extractLsb' 2 5 = imm := by
  rw [BaseInstr.word, BitVec.append_right_inj]
  conv_lhs => rw [← extractLsb'_eq_self (x := h)]
  conv_rhs => rw [← extractLsb'_eq_self (x := imm)]
  iterate 5 rw [append_eq_extractLsb'_iff]
  constructor
  · rintro ⟨⟨⟨⟨h3, h5⟩, hrd⟩, h0⟩, hq⟩
    exact ⟨hq.symm, h3.symm, hrd.symm, h5.symm, h0.symm⟩
  · rintro ⟨hq, h3, hrd, h5, h0⟩
    exact ⟨⟨⟨⟨h3.symm, h5.symm⟩, hrd.symm⟩, h0.symm⟩, hq.symm⟩

theorem word_cSdsp_eq_iff {rs2 : RegIdx} {off : BitVec 6} : (BaseInstr.cSdsp rs2 off).word = (0 : BitVec 16) ++ h ↔
    h.extractLsb' 0 2 = 0b10 ∧ h.extractLsb' 13 3 = 0b111 ∧ halfRs2 h = rs2 ∧
      h.extractLsb' 7 3 ++ h.extractLsb' 10 3 = off := by
  rw [BaseInstr.word, BitVec.append_right_inj]
  conv_lhs => rw [← extractLsb'_eq_self (x := h)]
  conv_rhs => rw [← extractLsb'_eq_self (x := off)]
  iterate 5 rw [append_eq_extractLsb'_iff]
  constructor
  · rintro ⟨⟨⟨⟨h3, h0⟩, h5⟩, hrs2⟩, hq⟩
    exact ⟨hq.symm, h3.symm, hrs2.symm, h5.symm, h0.symm⟩
  · rintro ⟨hq, h3, hrs2, h5, h0⟩
    exact ⟨⟨⟨⟨h3.symm, h0.symm⟩, h5.symm⟩, hrs2.symm⟩, hq.symm⟩

theorem word_cLdsp_eq_iff {rd : RegIdx} {off : BitVec 6} : (BaseInstr.cLdsp rd off).word = (0 : BitVec 16) ++ h ↔
    h.extractLsb' 0 2 = 0b10 ∧ h.extractLsb' 13 3 = 0b011 ∧ halfRd h = rd ∧
      h.extractLsb' 2 3 ++ h.extractLsb' 12 1 ++ h.extractLsb' 5 2 = off := by
  rw [BaseInstr.word, BitVec.append_right_inj]
  conv_lhs => rw [← extractLsb'_eq_self (x := h)]
  conv_rhs => rw [← extractLsb'_eq_self (x := off)]
  iterate 7 rw [append_eq_extractLsb'_iff]
  constructor
  · rintro ⟨⟨⟨⟨⟨h3, h2⟩, hrd⟩, h0⟩, h5⟩, hq⟩
    exact ⟨hq.symm, h3.symm, hrd.symm, ⟨h5.symm, h2.symm⟩, h0.symm⟩
  · rintro ⟨hq, h3, hrd, ⟨h5, h2⟩, h0⟩
    exact ⟨⟨⟨⟨⟨h3.symm, h2.symm⟩, hrd.symm⟩, h0.symm⟩, h5.symm⟩, hq.symm⟩

theorem word_cJr_eq_iff {rs1 : RegIdx} : (BaseInstr.cJr rs1).word = (0 : BitVec 16) ++ h ↔
    h.extractLsb' 0 2 = 0b10 ∧ h.extractLsb' 12 4 = 0b1000 ∧ halfRs2 h = 0 ∧ halfRd h = rs1 := by
  rw [BaseInstr.word, BitVec.append_right_inj]
  conv_lhs => rw [← extractLsb'_eq_self (x := h)]
  iterate 3 rw [append_eq_extractLsb'_iff]
  constructor
  · rintro ⟨⟨⟨h4, hrs1⟩, hrs2⟩, hq⟩
    exact ⟨hq.symm, h4.symm, hrs2.symm, hrs1.symm⟩
  · rintro ⟨hq, h4, hrs2, hrs1⟩
    exact ⟨⟨⟨h4.symm, hrs1.symm⟩, hrs2.symm⟩, hq.symm⟩

end

/-! ## What the base decoder accepts is its word -/

/-- The base instruction `b` is what the `n` bytes of the word `w` mean with `XLEN` = `xlen`. -/
structure IsBaseReading (xlen : Xlen) (n : Nat) (w : BitVec 32) (b : BaseInstr) : Prop where
  word : b.word = w
  length : b.ilen = n
  existsOn : b.existsOn xlen = true

section
variable {xlen : Xlen} {w : BitVec 32} {h : BitVec 16} {b : BaseInstr}

theorem decodeBaseSystem_isBaseReading (hop : fieldOpcode w = opcodeSystem) (hd : decodeBaseSystem w = some b) :
    IsBaseReading xlen 4 w b := by
  unfold decodeBaseSystem at hd
  split_ifs at hd with hm hs hu
  · cases hd; exact ⟨hm.symm, rfl, rfl⟩
  · cases hd; exact ⟨hs.symm, rfl, rfl⟩
  · cases hd; exact ⟨hu.symm, rfl, rfl⟩
  · split at hd
    next op imm c hop' hc =>
      cases hd
      exact ⟨encodeI_eq_iff.2 ⟨envCsrOf_eq_some_iff.1 hc, rfl, csrOpOf_eq_some_iff.1 hop', rfl, hop.symm⟩, rfl, rfl⟩
    next => cases hd

theorem decodeBase32_isBaseReading (hd : decodeBase32 xlen w = some b) : IsBaseReading xlen 4 w b := by
  unfold decodeBase32 at hd
  split_ifs at hd with hsys hret haddi hlw hld hsd hbeq
  · exact decodeBaseSystem_isBaseReading hsys hd
  · cases hd
    exact ⟨hret.symm, rfl, rfl⟩
  · cases hd
    obtain ⟨hop, h3⟩ := haddi
    exact ⟨encodeI_eq_iff.2 ⟨rfl, rfl, h3.symm, rfl, hop.symm⟩, rfl, rfl⟩
  · cases hd
    obtain ⟨hop, h3⟩ := hlw
    exact ⟨encodeI_eq_iff.2 ⟨rfl, rfl, h3.symm, rfl, hop.symm⟩, rfl, rfl⟩
  · cases hd
    obtain ⟨hop, h3, hx⟩ := hld
    exact ⟨encodeI_eq_iff.2 ⟨rfl, rfl, h3.symm, rfl, hop.symm⟩, rfl, beq_iff_eq.2 hx⟩
  · cases hd
    obtain ⟨hop, h3, hx⟩ := hsd
    exact ⟨word_sd_eq_iff.2 ⟨rfl, rfl, rfl, h3.symm, hop.symm⟩, rfl, beq_iff_eq.2 hx⟩
  · cases hd
    obtain ⟨hop, h3⟩ := hbeq
    exact ⟨word_beq_eq_iff.2 ⟨rfl, rfl, rfl, h3.symm, hop.symm⟩, rfl, rfl⟩

theorem decodeBase16_isBaseReading (hd : decodeBase16 xlen h = some b) :
    IsBaseReading xlen 2 ((0 : BitVec 16) ++ h) b := by
  unfold decodeBase16 at hd
  split_ifs at hd with haddi hsd hld hjr
  · cases hd
    obtain ⟨hq, h3⟩ := haddi
    exact ⟨word_cAddi_eq_iff.2 ⟨hq, h3, rfl, rfl⟩, rfl, rfl⟩
  · cases hd
    obtain ⟨hq, h3, hx⟩ := hsd
    exact ⟨word_cSdsp_eq_iff.2 ⟨hq, h3, rfl, rfl⟩, rfl, beq_iff_eq.2 hx⟩
  · cases hd
    obtain ⟨hq, h3, hx⟩ := hld
    exact ⟨word_cLdsp_eq_iff.2 ⟨hq, h3, rfl, rfl⟩, rfl, beq_iff_eq.2 hx⟩
  · cases hd
    obtain ⟨hq, h4, hrs2⟩ := hjr
    exact ⟨word_cJr_eq_iff.2 ⟨hq, h4, hrs2, rfl⟩, rfl, rfl⟩

end

/-! ## A word of the base is what the base decoder answers -/

section
variable {xlen : Xlen} {w : BitVec 32} {h : BitVec 16} {b : BaseInstr}

theorem CsrOp.funct3_ne (op : CsrOp) (imm : Bool) : op.funct3 imm ≠ 0b000 ∧ op.funct3 imm ≠ 0b100 := by
  cases op <;> cases imm <;> decide

theorem EnvCsr.number_ne (c : EnvCsr) : c.number ≠ fieldFunct12 wordUnimp ∧ c.number ≠ csrSspNumber := by
  cases c <;> decide

theorem decodeBaseSystem_csrEnv {op : CsrOp} {imm : Bool} {c : EnvCsr} (hop : op.funct3 imm = fieldFunct3 w)
    (hc : c.number = fieldFunct12 w) :
    decodeBaseSystem w = some (.csrEnv op imm c (fieldRd w) (fieldRs1 w)) := by
  have h3 : fieldFunct3 w ≠ 0b000 := hop ▸ (op.funct3_ne imm).1
  have hm : w ≠ wordMret := by rintro rfl; exact h3 rfl
  have hs : w ≠ wordSret := by rintro rfl; exact h3 rfl
  have hu : w ≠ wordUnimp := by rintro rfl; exact c.number_ne.1 hc
  rw [decodeBaseSystem, if_neg hm, if_neg hs, if_neg hu, csrOpOf_eq_some_iff.2 hop, envCsrOf_eq_some_iff.2 hc]

theorem ne_wordRet (h : fieldOpcode w ≠ fieldOpcode wordRet) : w ≠ wordRet := by
  rintro rfl
  exact h rfl

theorem decodeBase32_of_isBaseReading (hb : IsBaseReading xlen 4 w b) : decodeBase32 xlen w = some b := by
  obtain ⟨hw, hlen, hx⟩ := hb
  cases b with
  | cAddi | cSdsp | cLdsp | cJr => cases hlen
  | mret | sret | unimp | ret => subst hw; rfl
  | csrEnv op imm c rd f =>
    obtain ⟨hc, rfl, hop, rfl, hsys⟩ := encodeI_eq_iff.1 hw
    rw [decodeBase32, if_pos hsys.symm, decodeBaseSystem_csrEnv hop hc]
  | addi rd rs1 imm =>
    obtain ⟨rfl, rfl, h3, rfl, hop⟩ := encodeI_eq_iff.1 hw
    have hret : w ≠ wordRet := ne_wordRet (hop ▸ by decide)
    simp [decodeBase32, ← hop, ← h3, hret, opcodeSystem, opcodeOpImm]
  | lw rd rs1 imm =>
    obtain ⟨rfl, rfl, h3, rfl, hop⟩ := encodeI_eq_iff.1 hw
    have hret : w ≠ wordRet := ne_wordRet (hop ▸ by decide)
    simp [decodeBase32, ← hop, ← h3, hret, opcodeSystem, opcodeOpImm, opcodeLoad]
  | ld rd rs1 imm =>
    obtain ⟨rfl, rfl, h3, rfl, hop⟩ := encodeI_eq_iff.1 hw
    have hret : w ≠ wordRet := ne_wordRet (hop ▸ by decide)
    obtain rfl : xlen = .rv64 := beq_iff_eq.1 hx
    simp [decodeBase32, ← hop, ← h3, hret, opcodeSystem, opcodeOpImm, opcodeLoad]
  | sd rs2 rs1 imm =>
    obtain ⟨rfl, rfl, rfl, h3, hop⟩ := word_sd_eq_iff.1 hw
    have hret : w ≠ wordRet := ne_wordRet (hop ▸ by decide)
    obtain rfl : xlen = .rv64 := beq_iff_eq.1 hx
    simp [decodeBase32, ← hop, ← h3, hret, opcodeSystem, opcodeOpImm, opcodeLoad, opcodeStore]
  | beq rs1 rs2 off =>
    obtain ⟨rfl, rfl, rfl, h3, hop⟩ := word_beq_eq_iff.1 hw
    have hret : w ≠ wordRet := ne_wordRet (hop ▸ by decide)
    simp [decodeBase32, ← hop, ← h3, hret, opcodeSystem, opcodeOpImm, opcodeLoad, opcodeStore, opcodeBranch]

theorem decodeBase16_of_isBaseReading (hb : IsBaseReading xlen 2 ((0 : BitVec 16) ++ h) b) :
    decodeBase16 xlen h = some b := by
  obtain ⟨hw, hlen, hx⟩ := hb
  cases b with
  | cAddi rd imm =>
    obtain ⟨hq, h3, rfl, rfl⟩ := word_cAddi_eq_iff.1 hw
    rw [decodeBase16, if_pos ⟨hq, h3⟩]
  | cSdsp rs2 off =>
    obtain ⟨hq, h3, rfl, rfl⟩ := word_cSdsp_eq_iff.1 hw
    obtain rfl : xlen = .rv64 := beq_iff_eq.1 hx
    simp [decodeBase16, hq, h3]
  | cLdsp rd off =>
    obtain ⟨hq, h3, rfl, rfl⟩ := word_cLdsp_eq_iff.1 hw
    obtain rfl : xlen = .rv64 := beq_iff_eq.1 hx
    simp [decodeBase16, hq, h3]
  | cJr rs1 =>
    obtain ⟨hq, h4, hrs2, rfl⟩ := word_cJr_eq_iff.1 hw
    have h3 : h.extractLsb' 13 3 = 0b100 := by
      rw [← extractLsb'_extractLsb' h 12 4 1 3 (by decide), h4]
      decide
    simp [decodeBase16, hq, h3, h4, hrs2]
  | _ => cases hlen

end

/-! ## The length of a base instruction shows in its word -/

theorem BaseInstr.ilen_cases (b : BaseInstr) : b.ilen = 2 ∨ b.ilen = 4 := by
  cases b <;> simp [BaseInstr.ilen]

theorem BaseInstr.word_of_ilen_two {b : BaseInstr} (h : b.ilen = 2) :
    b.word = (0 : BitVec 16) ++ b.word.extractLsb' 0 16 := by
  cases b with
  | cAddi | cSdsp | cLdsp | cJr => exact congrArg (_ ++ ·) extractLsb'_append_eq_right.symm
  | _ => cases h

section
variable {xlen : Xlen} {w : BitVec 32} {h : BitVec 16} {b : BaseInstr}

/-- The major opcodes of the base instructions beside `SYSTEM`. -/
def baseOpcodes : List (BitVec 7) := [fieldOpcode wordRet, opcodeOpImm, opcodeLoad, opcodeStore, opcodeBranch]

theorem baseOpcodes_spec : ∀ o ∈ baseOpcodes, o.extractLsb' 0 2 = 0b11 ∧ o ≠ opcodeSystem ∧ o ≠ opcodeAmo := by
  decide

theorem decodeBase32_opcode (hd : decodeBase32 xlen w = some b) :
    (fieldOpcode w = opcodeSystem ∧ decodeBaseSystem w = some b) ∨ fieldOpcode w ∈ baseOpcodes := by
  unfold decodeBase32 at hd
  split_ifs at hd with hsys hret haddi hlw hld hsd hbeq
  · exact .inl ⟨hsys, hd⟩
  all_goals refine .inr ?_
  · simp [hret, baseOpcodes]
  · simp [haddi.1, baseOpcodes]
  · simp [hlw.1, baseOpcodes]
  · simp [hld.1, baseOpcodes]
  · simp [hsd.1, baseOpcodes]
  · simp [hbeq.1, baseOpcodes]

theorem low_bits_of_decodeBase32 (hd : decodeBase32 xlen w = some b) : w.extractLsb' 0 2 = 0b11 := by
  have hlow : (fieldOpcode w).extractLsb' 0 2 = w.extractLsb' 0 2 := extractLsb'_extractLsb' w 0 7 0 2 (by decide)
  rw [← hlow]
  rcases decodeBase32_opcode hd with ⟨hsys, -⟩ | ho
  · rw [hsys]
    decide
  · exact (baseOpcodes_spec _ ho).1

theorem low_bits_of_decodeBase16 (hd : decodeBase16 xlen h = some b) : h.extractLsb' 0 2 ≠ 0b11 := by
  unfold decodeBase16 at hd
  split_ifs at hd with haddi hsd hld hjr
  · rw [haddi.1]; decide
  · rw [hsd.1]; decide
  · rw [hld.1]; decide
  · rw [hjr.1]; decide

/-! ## No bytes are an instruction of both decoders -/

theorem decodeBaseSystem_fields (hd : decodeBaseSystem w = some b) :
    fieldFunct3 w ≠ 0b100 ∧ fieldFunct12 w ≠ csrSspNumber := by
  unfold decodeBaseSystem at hd
  split_ifs at hd with hm hs hu
  · subst hm; decide
  · subst hs; decide
  · subst hu; decide
  · split at hd
    next op imm c hop hc =>
      rw [← csrOpOf_eq_some_iff.1 hop, ← envCsrOf_eq_some_iff.1 hc]
      exact ⟨(op.funct3_ne imm).2, c.number_ne.2⟩
    next => cases hd

variable {active : Bool}

theorem decode32_rejects_of_decodeBase32 (hd : decodeBase32 xlen w = some b) :
    ∃ why, decode32 active w = .error why := by
  rcases decodeBase32_opcode hd with ⟨hsys, hd⟩ | ho
  · obtain ⟨h3, h12⟩ := decodeBaseSystem_fields hd
    exact ⟨.otherSystem, by rw [decode32, if_pos hsys, if_neg h3, if_neg h12]⟩
  · obtain ⟨-, hsys, hamo⟩ := baseOpcodes_spec _ ho
    exact ⟨.otherMajorOpcode, by rw [decode32, if_neg hsys, if_neg hamo]⟩

theorem decode16_rejects_of_decodeBase16 (hd : decodeBase16 xlen h = some b) :
    ∃ why, decode16 active h = .error why := by
  have h1 : h ≠ halfCMop1 := by rintro rfl; cases xlen <;> cases hd
  have h5 : h ≠ halfCMop5 := by rintro rfl; cases xlen <;> cases hd
  exact ⟨.otherCompressed, by rw [decode16, if_neg h1, if_neg h5]⟩

/-- Bytes the base decoder accepts are no instruction of the opcode table. -/
theorem decode_rejects_of_decodeBase {bytes : List Byte} (hd : decodeBase xlen bytes = some b) :
    ∃ why, decode active bytes = .reject why := by
  rcases decodeBase_cases hd with ⟨w, rfl, hw⟩ | ⟨half, rfl, hh⟩
  · obtain ⟨why, hwhy⟩ := decode32_rejects_of_decodeBase32 (active := active) hw
    have hdec := decode_bytesOfWord_four (active := active) (low_bits_of_decodeBase32 hw) []
    rw [List.append_nil, hwhy] at hdec
    exact ⟨why, hdec⟩
  · obtain ⟨why, hwhy⟩ := decode16_rejects_of_decodeBase16 (active := active) hh
    have hlow : ((0 : BitVec 16) ++ half).extractLsb' 0 2 ≠ 0b11 := by
      rw [extractLsb'_append_eq_of_add_le (by decide)]
      exact low_bits_of_decodeBase16 hh
    have hdec := decode_bytesOfWord_two (active := active) hlow []
    have hhalf : ((0 : BitVec 16) ++ half).extractLsb' 0 16 = half := extractLsb'_append_eq_right
    rw [List.append_nil, hhalf, hwhy] at hdec
    exact ⟨why, hdec⟩

/-! ## The round trips -/

theorem decodeBase_encodeBase (hx : b.existsOn xlen = true) : decodeBase xlen (encodeBase b) = some b := by
  rcases b.ilen_cases with h2 | h4
  · have hd : decodeBase16 xlen (b.word.extractLsb' 0 16) = some b :=
      decodeBase16_of_isBaseReading ⟨BaseInstr.word_of_ilen_two h2, h2, hx⟩
    have hlow : b.word.extractLsb' 0 2 ≠ 0b11 := by
      rw [← extractLsb'_extractLsb' b.word 0 16 0 2 (by decide)]
      exact low_bits_of_decodeBase16 hd
    rw [encodeBase, h2]
    exact (decodeBase_bytesOfWord_two hlow).trans hd
  · have hd : decodeBase32 xlen b.word = some b := decodeBase32_of_isBaseReading ⟨rfl, h4, hx⟩
    rw [encodeBase, h4]
    exact (decodeBase_bytesOfWord_four (low_bits_of_decodeBase32 hd)).trans hd

theorem encodeBase_of_decodeBase {bytes : List Byte} (hd : decodeBase xlen bytes = some b) :
    encodeBase b = bytes ∧ b.existsOn xlen = true := by
  rcases decodeBase_cases hd with ⟨w, rfl, hw⟩ | ⟨half, rfl, hh⟩
  · obtain ⟨hword, hlen, hx⟩ := decodeBase32_isBaseReading hw
    exact ⟨by rw [encodeBase, hword, hlen], hx⟩
  · obtain ⟨hword, hlen, hx⟩ := decodeBase16_isBaseReading hh
    exact ⟨by rw [encodeBase, hword, hlen], hx⟩

end

/-- Settles O59: the base decoder and its encoder are inverse to each other, and what the base decoder accepts the
opcode table's refuses. -/
theorem baseDecodeInvertsEncode : Obligations.BaseDecodeInvertsEncode := by
  refine ⟨fun xlen b hx => ?_, fun xlen bytes b hd => encodeBase_of_decodeBase hd⟩
  have hd := decodeBase_encodeBase hx
  exact ⟨hd, fun active => decode_rejects_of_decodeBase hd⟩

end Sys2Proof.Machine
end

section
/-! PROOFS, the family of 30_encoding.md, part 5: the two readings of a word, and which instruction a step runs. -/

namespace Sys2Proof.Machine

open Sys2Proof.Config

/-! ## The reading with `xSSE` = 0 (30 R87) -/

/-- The right column of 30 R87: what the word of an instruction stands for where `xSSE` = 0. -/
def inactiveReading : Instr → Instr
  | .sspushX1 => .mopRr7 0 0 1
  | .sspushX5 => .mopRr7 0 0 5
  | .sspopchkX1 => .mopR28 0 1
  | .sspopchkX5 => .mopR28 0 5
  | .ssrdp rd => .mopR28 rd 0
  | .cSspushX1 => .cMop1
  | .cSspopchkX5 => .cMop5
  | i => i

theorem encode_inactiveReading (i : Instr) : encode (inactiveReading i) = encode i := by
  cases i <;> rfl

theorem wellFormed_inactiveReading (i : Instr) : WellFormed (inactiveReading i) = true := by
  cases i <;> rfl

theorem readsUnder_inactiveReading (i : Instr) : ReadsUnder false (inactiveReading i) = true := by
  cases i <;> rfl

/-- The bytes of an instruction mean its inactive reading where `xSSE` = 0. -/
theorem decode_inactiveReading {active : Bool} {bytes rest : List Byte} {i : Instr}
    (h : decode active bytes = .ok i rest) : decode false bytes = .ok (inactiveReading i) rest := by
  obtain ⟨rfl, -⟩ := encodeInvertsDecode active bytes i rest h
  rw [← encode_inactiveReading]
  exact decodeInvertsEncode _ false rest (wellFormed_inactiveReading i) (readsUnder_inactiveReading i)

/-- Where `xSSE` = 0 an instruction does what its inactive reading does (44 R135 to R138). -/
theorem exec_inactiveReading {s : State} (h : s.xSSE = false) (i : Instr) : exec (inactiveReading i) s = exec i s := by
  have hpush (src : RegIdx) (n : Nat) (t : State) : s.ssPush src n t = t := by simp [State.ssPush, h]
  have hpop (src : RegIdx) (n : Nat) (t : State) : s.ssPopChk src n t = t := by simp [State.ssPopChk, h]
  cases i with
  | sspushX1 | sspushX5 | cSspushX1 => exact congrArg Host.Outcome.next (hpush _ _ _).symm
  | sspopchkX1 | sspopchkX5 | cSspopchkX5 => exact congrArg Host.Outcome.next (hpop _ _ _).symm
  | ssrdp rd => simp [inactiveReading, exec, execSsrdp, execMopR28, h]
  | _ => rfl

/-- Settles O5: the second reading is the inactive reading of the first. -/
theorem inactiveReadingsAgree : Obligations.InactiveReadingsAgree := by
  intro bytes i j r r' s hs hi hj
  obtain ⟨rfl, -⟩ := Decoded.ok.inj ((decode_inactiveReading hi).symm.trans hj)
  exact (exec_inactiveReading hs i).symm

/-- Settles O1: fifteen closed evaluations of the decoder. -/
theorem listedWordsDecode : Obligations.ListedWordsDecode := by
  unfold Obligations.ListedWordsDecode
  decide

/-! ## The step -/

section
variable {s : State} {bytes rest : List Byte} {i : Instr} {b : BaseInstr} {why : Reject}

theorem step_of_decode (hf : s.fetch = .ok bytes) (hd : decode s.xSSE bytes = .ok i rest) : step s = exec i s := by
  simp only [step, hf, hd]

theorem step_of_decodeBase (hf : s.fetch = .ok bytes) (hd : decode s.xSSE bytes = .reject why)
    (hb : decodeBase s.cfg.xlen bytes = some b) : step s = .next (s.execBase b) := by
  simp only [step, hf, hd, hb]

theorem step_of_decodeBase_none (hf : s.fetch = .ok bytes) (hd : decode s.xSSE bytes = .reject why)
    (hb : decodeBase s.cfg.xlen bytes = none) : step s = .refused (.outsideSpec why) := by
  simp only [step, hf, hd, hb]

end

/-- Settles O6: the clauses are the branches of the step. -/
theorem stepRunsTheDecodedInstruction : Obligations.StepRunsTheDecodedInstruction := fun _ =>
  ⟨fun _ _ _ hf hd => step_of_decode hf hd, fun _ _ hf => step_of_fetch_error hf, fun _ _ hf hd =>
    ⟨fun _ hb => step_of_decodeBase hf hd hb, fun hb => step_of_decodeBase_none hf hd hb⟩⟩

/-! ## The fetch in M-mode -/

theorem truncTo_toNat (x : Xlen) (w : Word) : (truncTo x w).toNat = w.toNat % 2 ^ xlenBits x := by
  cases x
  · simp [truncTo, xlenBits]
    omega
  · exact (Nat.mod_eq_of_lt w.isLt).symm

/-- Below the top of the address space the bytes of an access lie at consecutive addresses. -/
theorem State.byteAddr_toNat (s : State) {va : Word} {k : Nat} (h : va.toNat + k < 2 ^ xlenBits s.cfg.xlen) :
    (s.byteAddr va k).toNat = va.toNat + k := by
  have hword : va.toNat + k < 2 ^ 64 := h.trans_le (Nat.pow_le_pow_right (by decide) (xlenBits_le _))
  by_cases hk : k = 0
  · simp [State.byteAddr, hk]
  · rw [State.byteAddr, if_neg hk, State.trunc, truncTo_toNat, BitVec.toNat_add, BitVec.toNat_ofNat, Nat.add_mod_mod,
      Nat.mod_eq_of_lt hword, Nat.mod_eq_of_lt h]

/-- In M-mode a byte is fetched from its own address where the PMP lets M-mode execute (log entries 20 and 37). -/
theorem State.ordinaryByte_machine (s : State) {kind : AccessKind} {v : Bool} {va : Word}
    (h : (pmpAt s.pmp .machine va.toNat).grants kind = true) :
    s.ordinaryByte kind .machine v va = .ok va.toNat :=
  if_pos h

/-- A fetch whose every byte passes answers the bytes at their places: two, or four where the first two announce a
32-bit instruction (30 R80). -/
theorem State.fetch_ok {s : State} {pa : Nat → Nat} {n : Nat} (hn : n = 2 ∨ n = 4)
    (hpass : ∀ k < n, s.ordinaryByte .fetch s.priv s.v (s.byteAddr s.pc k) = .ok (pa k))
    (hlong : isLong (halfOfBytes (Memory.read s.mem (pa 0)) (Memory.read s.mem (pa 1))) = true ↔ n = 4) :
    s.fetch = .ok ((List.range n).map fun k => Memory.read s.mem (pa k)) := by
  have hfirst : s.fetchParcel s.pc = .ok [pa 0, pa 1] :=
    State.ordinaryBytes_ok 2 s.pc pa fun k hk => hpass k (by omega)
  rcases hn with rfl | rfl
  · simp [State.fetch, hfirst, hlong, List.range_succ]
  · have hsecond : s.fetchParcel (s.pcAfter 2) = .ok [pa 2, pa 3] :=
      State.ordinaryBytes_ok 2 (s.pcAfter 2) (fun k => pa (2 + k)) fun k hk =>
        (congrArg _ (s.byteAddr_pcAfter (m := 2) (by decide) k)).trans (hpass (2 + k) (by omega))
    simp [State.fetch, hfirst, hsecond, hlong, List.range_succ]

/-- The first two bytes of an instruction announce its length. -/
theorem isLong_encode_iff {i : Instr} {b0 b1 : Byte} (h0 : (encode i)[0]? = some b0) (h1 : (encode i)[1]? = some b1) :
    isLong (halfOfBytes b0 b1) = true ↔ ilen i = 4 := by
  obtain ⟨-, hlen, hlow⟩ := length_statement i
  have hbytes : b0 = (encodeWord i).extractLsb' 0 8 ∧ b1 = (encodeWord i).extractLsb' 8 8 := by
    unfold encode at h0 h1
    rcases hlen with hlen | hlen
    · rw [hlen, bytesOfWord_two] at h0 h1
      exact ⟨(Option.some.inj h0).symm, (Option.some.inj h1).symm⟩
    · rw [hlen, bytesOfWord_four] at h0 h1
      exact ⟨(Option.some.inj h0).symm, (Option.some.inj h1).symm⟩
  obtain ⟨rfl, rfl⟩ := hbytes
  rw [halfOfBytes_extractLsb' _ 0, isLong_low_iff, hlow]

/-- Settles O7: the fetch answers the encoding, which decodes to the instruction. -/
theorem stepRunsTheInstructionInMemory : Obligations.StepRunsTheInstructionInMemory := by
  intro s i hm hwf hr htop hpmp hbytes
  obtain ⟨hlength, hlen, -⟩ := length_statement i
  have haddr : ∀ k < ilen i, (s.byteAddr s.pc k).toNat = s.pc.toNat + k := fun k hk =>
    s.byteAddr_toNat (by omega)
  have hpass : ∀ k < ilen i, s.ordinaryByte .fetch s.priv s.v (s.byteAddr s.pc k) = .ok (s.pc.toNat + k) := by
    intro k hk
    rw [hm, ← haddr k hk]
    exact s.ordinaryByte_machine (by rw [haddr k hk]; exact hpmp k hk)
  have hlong := isLong_encode_iff (hbytes 0 (by omega)) (hbytes 1 (by omega))
  have hencode : (List.range (ilen i)).map (fun k => Memory.read s.mem (s.pc.toNat + k)) = encode i := by
    refine List.ext_getElem (by simp [hlength]) fun k _ hk => ?_
    have hbyte := hbytes k (hlength ▸ hk)
    rw [List.getElem?_eq_getElem hk, Option.some.injEq] at hbyte
    simp [hbyte]
  have hfetch : s.fetch = .ok (encode i) := hencode ▸ State.fetch_ok hlen hpass hlong
  have hdecode : decode s.xSSE (encode i) = .ok i [] := by
    rw [State.xSSE_of_machine hm, ← List.append_nil (encode i)]
    exact decodeInvertsEncode i false [] hwf hr
  exact step_of_decode hfetch hdecode

/-- Settles O38: on RV32 the word is refused before any check of the mode. -/
theorem doublewordSwapIsIllegalOnRv32 : Obligations.DoublewordSwapIsIllegalOnRv32 := fun s rd rs2 rs1 aq rl h =>
  ⟨_, by simp only [exec, execSsamoswapD, h], s.raiseInsn_wordTrap _ _⟩

end Sys2Proof.Machine
end

section
/-! PROOFS, the family of 40_sspush.md, part 1: the operand fields in the instruction words. A field joined by `++` lies at
its place in the word (`placedAt_append`), so the word of a format is its word with zero operands, with the operands put
in at their places. -/

namespace Sys2Proof.Machine

/-! ## Fields at their places -/

/-- A field at bit `k` of an instruction word, zero elsewhere. -/
def placedAt {n : Nat} (f : BitVec n) (k : Nat) : BitVec 32 := f.setWidth 32 <<< k

theorem placedAt_eq_fieldAt (f : RegIdx) (k : Nat) : placedAt f k = fieldAt f k := rfl

theorem placedAt_ofBool (b : Bool) (k : Nat) : placedAt (BitVec.ofBool b) k = bitAt b k := rfl

/-- A word lies in itself at bit 0. -/
theorem placedAt_zero (w : BitVec 32) : placedAt w 0 = w := by
  simp [placedAt]

@[simp] theorem fieldAt_zero (k : Nat) : fieldAt 0 k = 0#32 := by
  simp [fieldAt]

@[simp] theorem bitAt_false (k : Nat) : bitAt false k = 0#32 := by
  simp [bitAt]

theorem placedAt_getLsbD {n : Nat} (f : BitVec n) (k : Nat) {i : Nat} (hi : i < 32) :
    (placedAt f k).getLsbD i = (!decide (i < k) && f.getLsbD (i - k)) := by
  simp [placedAt, hi]

/-- Two values joined lie in a word as the first above the second. -/
theorem placedAt_append {m n : Nat} (x : BitVec m) (y : BitVec n) (k : Nat) :
    placedAt (x ++ y) k = placedAt x (k + n) ||| placedAt y k := by
  apply BitVec.eq_of_getLsbD_eq
  intro i hi
  rw [BitVec.getLsbD_or, placedAt_getLsbD _ _ hi, placedAt_getLsbD _ _ hi, placedAt_getLsbD _ _ hi,
    BitVec.getLsbD_append]
  by_cases hy : i < k + n
  · have hlow : i < k ∨ i - k < n := by omega
    rcases hlow with h | h <;> simp [h, hy]
  · have hk : ¬i < k := by omega
    have hn : ¬i - k < n := by omega
    simp [hy, hk, hn, Nat.sub_sub, BitVec.getLsbD_of_ge y (i - k) (by omega)]

/-! ## The formats -/

/-- With associativity and commutativity, enough to sort the parts of a word. -/
theorem bitOr_left_comm (x y z : BitVec 32) : x ||| (y ||| z) = y ||| (x ||| z) := by
  rw [← BitVec.or_assoc, BitVec.or_comm x, BitVec.or_assoc]

section
variable {rd rs1 rs2 : RegIdx} {funct3 : BitVec 3} {c : BitVec 32}

theorem encodeI_eq_placedAt {imm : BitVec 12} {opcode : BitVec 7} : encodeI imm rs1 funct3 rd opcode =
    placedAt imm 20 ||| fieldAt rs1 15 ||| placedAt funct3 12 ||| fieldAt rd 7 ||| placedAt opcode 0 := by
  rw [← placedAt_zero (encodeI imm rs1 funct3 rd opcode), encodeI]
  iterate 4 rw [placedAt_append]
  rfl

theorem encodeMopRr_eq_placedAt : encodeMopRr rd rs1 rs2 =
    placedAt funct7MopRr7 25 ||| fieldAt rs2 20 ||| fieldAt rs1 15 ||| placedAt (0b100 : BitVec 3) 12 |||
      fieldAt rd 7 ||| placedAt opcodeSystem 0 := by
  rw [← placedAt_zero (encodeMopRr rd rs1 rs2), encodeMopRr]
  iterate 5 rw [placedAt_append]
  rfl

theorem encodeAmo_eq_placedAt {aq rl : Bool} : encodeAmo funct3 rd rs2 rs1 aq rl =
    placedAt funct5SsAmoSwap 27 ||| bitAt aq 26 ||| bitAt rl 25 ||| fieldAt rs2 20 ||| fieldAt rs1 15 |||
      placedAt funct3 12 ||| fieldAt rd 7 ||| placedAt opcodeAmo 0 := by
  rw [← placedAt_zero (encodeAmo funct3 rd rs2 rs1 aq rl), encodeAmo]
  iterate 7 rw [placedAt_append]
  rfl

/-! ## Operands put into a word without operands -/

theorem encodeI_eq_or {imm : BitVec 12} {opcode : BitVec 7} (h : encodeI imm 0 funct3 0 opcode = c) :
    encodeI imm rs1 funct3 rd opcode = c ||| fieldAt rs1 15 ||| fieldAt rd 7 := by
  simp only [← h, encodeI_eq_placedAt, fieldAt_zero, BitVec.zero_or, BitVec.or_comm, bitOr_left_comm]

theorem encodeMopR_eq_or (h : encodeMopR 0 0 = c) :
    encodeMopR rd rs1 = c ||| fieldAt rs1 15 ||| fieldAt rd 7 := encodeI_eq_or h

theorem encodeCsrSsp_eq_or (h : encodeCsrSsp funct3 0 0 = c) :
    encodeCsrSsp funct3 rd rs1 = c ||| fieldAt rs1 15 ||| fieldAt rd 7 := encodeI_eq_or h

theorem encodeMopRr_eq_or (h : encodeMopRr 0 0 0 = c) :
    encodeMopRr rd rs1 rs2 = c ||| fieldAt rs2 20 ||| fieldAt rs1 15 ||| fieldAt rd 7 := by
  simp only [← h, encodeMopRr_eq_placedAt, fieldAt_zero, BitVec.zero_or, BitVec.or_assoc, BitVec.or_comm,
    bitOr_left_comm]

theorem encodeAmo_eq_or {aq rl : Bool} (h : encodeAmo funct3 0 0 0 false false = c) :
    encodeAmo funct3 rd rs2 rs1 aq rl =
      c ||| bitAt aq 26 ||| bitAt rl 25 ||| fieldAt rs2 20 ||| fieldAt rs1 15 ||| fieldAt rd 7 := by
  simp only [← h, encodeAmo_eq_placedAt, fieldAt_zero, bitAt_false, BitVec.zero_or, BitVec.or_assoc, BitVec.or_comm,
    bitOr_left_comm]

end

/-- Settles O2: the words without operands are closed evaluations of the encoder, the others their format with zero
operands and the operands put in. -/
theorem encodingsAreTheListedWords : Obligations.EncodingsAreTheListedWords := by
  refine ⟨⟨rfl, rfl, rfl, rfl, rfl, rfl, rfl, rfl⟩, fun _ _ _ _ _ => ⟨encodeAmo_eq_or rfl, encodeAmo_eq_or rfl⟩,
    fun _ _ _ => encodeMopRr_eq_or rfl, fun rd _ => ⟨?_, encodeMopR_eq_or rfl, encodeCsrSsp_eq_or rfl,
      encodeCsrSsp_eq_or rfl, encodeCsrSsp_eq_or rfl, encodeCsrSsp_eq_or rfl, encodeCsrSsp_eq_or rfl,
      encodeCsrSsp_eq_or rfl⟩⟩
  have hzero : encodeMopR rd 0 = 0xCDC04073 ||| fieldAt 0 15 ||| fieldAt rd 7 := encodeMopR_eq_or rfl
  rwa [fieldAt_zero, BitVec.or_zero] at hzero

end Sys2Proof.Machine
end

section
/-! PROOFS, the family of 40_sspush.md, part 2: what a push does. Where `xSSE` = 1 it has two outcomes: it stores
and moves `ssp`, or its access is refused; where `xSSE` = 0 it is a May-Be-Operation. -/

namespace Sys2Proof.Machine

open Sys2Proof.Config

/-! ## A shadow stack entry -/

theorem xlenBits_eq (x : Xlen) : xlenBits x = 8 * xlenBytes x := by cases x <;> rfl

/-- An entry just stored is loaded as the `XLEN` low bits of its value (20 R42, R43). -/
theorem State.load_store_entry (s : State) (m : Memory) (pa : Nat) (w : Word) :
    Memory.load (Memory.store m pa s.entryBytes w) pa s.entryBytes = s.trunc w := by
  apply BitVec.eq_of_getLsbD_eq
  intro i hi
  have h := Memory.load_store_getLsbD m pa w (j := 0) (k := s.entryBytes) (n := s.entryBytes) (by omega) hi
  rw [Nat.add_zero, Nat.mul_zero, Nat.zero_add] at h
  rw [h, State.trunc, truncTo_getLsbD, xlenBits_eq]
  rfl

/-- An address that is a multiple of `2^m` has its `m` low bits clear. -/
theorem getLsbD_of_aligned {va : Word} {m k : Nat} (ha : va.toNat % 2 ^ m = 0) (hk : k < m) : va.getLsbD k = false := by
  have h := Nat.testBit_mod_two_pow va.toNat m k
  rw [ha, Nat.zero_testBit, decide_eq_true hk, Bool.true_and] at h
  exact h.symm

/-- The address of an entry is a legal value of `ssp` (10 R13). -/
theorem State.legalSsp_of_aligned {s : State} (hwf : s.cfg.Wf) {va : Word} (ha : va.toNat % s.entryBytes = 0) :
    s.legalSsp va = s.trunc va := by
  have hlow (k : Nat) (hk : k < 2 ∨ k = 2 ∧ s.cfg.sspBit2RoZero = true) : va.getLsbD k = false := by
    obtain ⟨_, hbit2, _⟩ := hwf
    unfold State.entryBytes at ha
    cases hx : s.cfg.xlen <;> rw [hx] at ha
    case rv32 => exact getLsbD_of_aligned (m := 2) ha (hk.resolve_right fun h => by simp [hbit2 hx] at h)
    case rv64 => exact getLsbD_of_aligned (m := 3) ha (by omega)
  apply BitVec.eq_of_getLsbD_eq
  intro k _
  rw [State.legalSsp_getLsbD, State.trunc, truncTo_getLsbD]
  by_cases hk : k < 2 ∨ k = 2 ∧ s.cfg.sspBit2RoZero = true
  · rw [hlow k hk, Bool.and_false, Bool.and_false]
  · obtain ⟨hk2, hk3⟩ := not_or.1 hk
    have hmask : (decide (k = 2) && s.cfg.sspBit2RoZero) = false := by simpa using hk3
    rw [hmask, decide_eq_false hk2, Bool.not_false, Bool.and_true, Bool.and_true]

/-- An access to which no fault applies is aligned. -/
theorem State.aligned_of_ssFaults_nil {s : State} {op : SsOp} {va : Word} {n : Nat} (h : s.ssFaults op va n = []) :
    va.toNat % n = 0 := (s.alignFaults_eq_nil_iff op va n).1 (List.append_eq_nil_iff.1 h).1

/-! ## The outcomes of a push -/

section
variable {s fallback : State} {src : RegIdx} {n : Nat}

theorem State.ssPush_pass (hs : s.xSSE = true) (h : s.ssFaults .push s.pushAddr s.entryBytes = []) :
    s.ssPush src n fallback =
      ((s.storeAt (s.ssAddr .push s.pushAddr s.entryBytes) s.entryBytes (s.readX src)).writeSsp
        s.pushAddr).advance n := by
  rw [State.ssPush, if_pos hs, State.withSsAccess_pass h]

theorem State.ssPush_fail (hs : s.xSSE = true) {e : Exc} {es : List Exc}
    (h : s.ssFaults .push s.pushAddr s.entryBytes = e :: es) :
    s.ssPush src n fallback = s.raiseSs e es s.pushAddr := by
  rw [State.ssPush, if_pos hs, State.withSsAccess_fail h]

/-! ## The pushes of the opcode table -/

variable {i : Instr} {fallbackOf : State → State}

/-- An instruction that pushes stores the register and moves `ssp` where nothing applies (40 R100). -/
theorem pushCompletes_of_exec (hexec : ∀ s, exec i s = .next (s.ssPush src n (fallbackOf s))) :
    PushCompletes i src n := by
  intro s hwf hs hfaults
  have hssp : s.legalSsp s.pushAddr = s.pushAddr :=
    (State.legalSsp_of_aligned hwf (State.aligned_of_ssFaults_nil hfaults)).trans (s.trunc_trunc _)
  refine ⟨_, (hexec s).trans (congrArg _ (State.ssPush_pass hs hfaults)), ?_, fun a ha => ?_, ?_, rfl, fun _ => rfl,
    .refl s⟩
  · exact (s.load_store_entry s.mem _ _).trans (s.trunc_readX src)
  · exact Memory.read_store_outside _ s.mem _ _ a ha
  · rw [State.advance_readSsp, State.writeSsp_readSsp]
    exact hssp

/-- Where its access is refused it takes the reported fault (40 R103). -/
theorem pushFaults_of_exec (hexec : ∀ s, exec i s = .next (s.ssPush src n (fallbackOf s))) : PushFaults i :=
  fun s e es hs hfaults =>
    ⟨_, (hexec s).trans (congrArg _ (State.ssPush_fail hs hfaults)), s.raiseSs_addrTrap e es s.pushAddr⟩

end

/-- Settles O25: each of the three is a push. -/
theorem pushStoresAndMovesSsp : Obligations.PushStoresAndMovesSsp :=
  ⟨pushCompletes_of_exec fun _ => rfl, pushCompletes_of_exec fun _ => rfl, pushCompletes_of_exec fun _ => rfl⟩

/-- Settles O26: each of the three is a push, and a refused access takes the reported fault. -/
theorem faultingPushWritesNothing : Obligations.FaultingPushWritesNothing :=
  ⟨pushFaults_of_exec fun _ => rfl, pushFaults_of_exec fun _ => rfl, pushFaults_of_exec fun _ => rfl⟩

/-- With `xSSE` = 0 an instruction whose inactive reading does nothing does nothing. -/
theorem inactiveOnlyAdvances_of_reading {i : Instr} {n : Nat}
    (h : ∀ s, exec (inactiveReading i) s = .next (s.advance n)) : InactiveOnlyAdvances i n :=
  fun s hs => (exec_inactiveReading hs i).symm.trans (h s)

/-- Settles O30: the inactive readings are May-Be-Operations that write `x0` or nothing (44 R140). -/
theorem inactivePushAndPopOnlyAdvance : Obligations.InactivePushAndPopOnlyAdvance :=
  ⟨inactiveOnlyAdvances_of_reading fun _ => rfl, inactiveOnlyAdvances_of_reading fun _ => rfl,
    inactiveOnlyAdvances_of_reading fun _ => rfl, inactiveOnlyAdvances_of_reading fun _ => rfl,
    inactiveOnlyAdvances_of_reading fun _ => rfl, inactiveOnlyAdvances_of_reading fun _ => rfl⟩

end Sys2Proof.Machine
end

section
/-! PROOFS, the family of 40_sspush.md, part 3: which instructions and which steps write memory. -/

namespace Sys2Proof.Machine

/-! ## The shared operations that leave memory alone -/

/-- A refused access writes nothing, so an access leaves memory alone if what follows it does. -/
theorem State.withSsAccess_mem {s : State} {op : SsOp} {va : Word} {n : Nat} {go : Nat → State}
    (hgo : ∀ pa, (go pa).mem = s.mem) : (s.withSsAccess op va n go).mem = s.mem := by
  rcases s.withSsAccess_cases op va n go with ⟨_, h⟩ | ⟨e, es, _, h⟩ <;> rw [h]
  · exact hgo _
  · exact s.raiseSs_mem e es va

theorem State.ssPopChk_mem {s fallback : State} (src : RegIdx) (n : Nat) (hf : fallback.mem = s.mem) :
    (s.ssPopChk src n fallback).mem = s.mem := by
  unfold State.ssPopChk
  split
  · refine State.withSsAccess_mem fun pa => ?_
    split
    · rfl
    · exact s.raiseSoftwareCheck_mem
  · exact hf

theorem State.csrSsp_mem (s : State) (rd : RegIdx) (new : Option Word) (word : BitVec 32) :
    (s.csrSsp rd new word).mem = s.mem := by
  unfold State.csrSsp
  split
  · exact s.raiseInsn_mem _ word
  · split <;> rfl

/-! ## Which instructions write memory -/

/-- An instruction of the opcode table pushes or swaps, or leaves memory alone. -/
theorem exec_mem {i : Instr} {s t : State} (h : exec i s = .next t) : WritesMemory i ∨ t.mem = s.mem := by
  cases i
  case sspushX1 => exact .inl (.inl rfl)
  case sspushX5 => exact .inl (.inr (.inl rfl))
  case cSspushX1 => exact .inl (.inr (.inr (.inl rfl)))
  case ssamoswapW rd rs2 rs1 aq rl => exact .inl (.inr (.inr (.inr ⟨rd, rs2, rs1, aq, rl, .inl rfl⟩)))
  case ssamoswapD rd rs2 rs1 aq rl => exact .inl (.inr (.inr (.inr ⟨rd, rs2, rs1, aq, rl, .inr rfl⟩)))
  case sspopchkX1 | sspopchkX5 | cSspopchkX5 => cases h; exact .inr (State.ssPopChk_mem _ _ rfl)
  case ssrdp => cases h; right; split <;> rfl
  case mopRr7 | mopR28 | cMop1 | cMop5 => cases h; exact .inr rfl
  all_goals cases h; exact .inr (s.csrSsp_mem ..)

/-- A base instruction stores or leaves memory alone. -/
theorem State.execBase_mem {s : State} {bytes : List Byte} {b : BaseInstr}
    (hb : decodeBase s.cfg.xlen bytes = some b) : IsBaseStore s bytes ∨ (s.execBase b).mem = s.mem := by
  by_cases hstore : IsBaseStore s bytes
  · exact .inl hstore
  · obtain ⟨_, hframe⟩ := s.execBase_frame b
    refine .inr (hframe ?_ ?_)
    · rintro rs2 rs1 imm rfl
      exact hstore ⟨rs2, .inl ⟨rs1, imm, hb⟩⟩
    · rintro rs2 off rfl
      exact hstore ⟨rs2, .inr ⟨off, hb⟩⟩

/-! ## Which steps write memory -/

/-- A step leaves memory alone, or the bytes fetched are an instruction that writes it. -/
theorem step_mem {s t : State} (h : step s = .next t) :
    t.mem = s.mem ∨ ∃ bytes, s.fetch = .ok bytes ∧
      ((∃ i rest, decode s.xSSE bytes = .ok i rest ∧ WritesMemory i) ∨ IsBaseStore s bytes) := by
  unfold step at h
  split at h
  next e va _ => cases h; exact .inl (s.raiseAddr_mem e va)
  next bytes hfetch =>
    split at h
    next i rest hdecode =>
      rcases exec_mem h with hwrites | hmem
      · exact .inr ⟨bytes, hfetch, .inl ⟨i, rest, hdecode, hwrites⟩⟩
      · exact .inl hmem
    next =>
      split at h
      next b hb =>
        cases h
        rcases State.execBase_mem hb with hstore | hmem
        · exact .inr ⟨bytes, hfetch, .inr hstore⟩
        · exact .inl hmem
      next => cases h

theorem sameMemory_of_mem_eq {s t : State} (h : t.mem = s.mem) : SameMemory s t := fun a =>
  congrArg (Memory.read · a) h

/-- Settles O53: of the opcode table by `exec_mem`, of the steps by `step_mem`. -/
theorem onlyPushSwapAndBaseStoreWriteMemory : Obligations.OnlyPushSwapAndBaseStoreWriteMemory := by
  refine ⟨fun i s t h hswap hpush1 hpush5 hcpush => ?_, fun s t h => (step_mem h).imp_left sameMemory_of_mem_eq⟩
  rcases exec_mem h with (h1 | h5 | hc | ⟨rd, rs2, rs1, aq, rl, hamo⟩) | hmem
  · exact absurd h1 hpush1
  · exact absurd h5 hpush5
  · exact absurd hc hcpush
  · obtain ⟨hw, hd⟩ := hswap rd rs2 rs1 aq rl
    exact (hamo.elim hw hd).elim
  · exact sameMemory_of_mem_eq hmem

end Sys2Proof.Machine
end

section
/-! PROOFS, the family of 41_sspopchk.md, part 1: what a pop does. Where `xSSE` = 1 it has three outcomes: it finds the
value it checks and moves `ssp`, it finds another value and raises the shadow stack fault, or its access is refused. -/

namespace Sys2Proof.Machine

open Sys2Proof.Config

/-! ## The next entry -/

theorem State.entryBytes_dvd_two_pow (s : State) :
    s.entryBytes ∣ 2 ^ xlenBits s.cfg.xlen ∧ s.entryBytes ∣ 2 ^ 64 := by
  unfold State.entryBytes
  cases s.cfg.xlen <;> decide

/-- One entry above an aligned address is an aligned address, also where it wraps around. -/
theorem State.aligned_popAddr {s : State} (ha : s.readSsp.toNat % s.entryBytes = 0) :
    s.popAddr.toNat % s.entryBytes = 0 := by
  obtain ⟨hxlen, h64⟩ := s.entryBytes_dvd_two_pow
  have hsum : (s.readSsp + BitVec.ofNat 64 s.entryBytes).toNat % s.entryBytes = 0 := by
    rw [BitVec.toNat_add, Nat.mod_mod_of_dvd _ h64, BitVec.toNat_ofNat, Nat.add_mod, ha, Nat.mod_mod_of_dvd _ h64,
      Nat.mod_self, Nat.zero_mod]
  rw [State.popAddr, State.trunc, truncTo_toNat, Nat.mod_mod_of_dvd _ hxlen, hsum]

/-- What a pop writes to an aligned `ssp` is a legal value of it (10 R13). -/
theorem State.legalSsp_popAddr {s : State} (hwf : s.cfg.Wf) (ha : s.readSsp.toNat % s.entryBytes = 0) :
    s.legalSsp s.popAddr = s.popAddr :=
  (State.legalSsp_of_aligned hwf (State.aligned_popAddr ha)).trans (s.trunc_trunc _)

/-! ## The outcomes of a pop -/

section
variable {s fallback : State} {src : RegIdx} {n : Nat} (hs : s.xSSE = true)
include hs

theorem State.ssPopChk_match (h : s.ssFaults .popChk s.readSsp s.entryBytes = [])
    (hmatch : Memory.load s.mem (s.ssAddr .popChk s.readSsp s.entryBytes) s.entryBytes = s.readX src) :
    s.ssPopChk src n fallback = (s.writeSsp s.popAddr).advance n := by
  rw [State.ssPopChk, if_pos hs, State.withSsAccess_pass h, if_pos hmatch]

theorem State.ssPopChk_mismatch (h : s.ssFaults .popChk s.readSsp s.entryBytes = [])
    (hmismatch : Memory.load s.mem (s.ssAddr .popChk s.readSsp s.entryBytes) s.entryBytes ≠ s.readX src) :
    s.ssPopChk src n fallback = s.raiseSoftwareCheck := by
  rw [State.ssPopChk, if_pos hs, State.withSsAccess_pass h, if_neg hmismatch]

theorem State.ssPopChk_fail {e : Exc} {es : List Exc} (h : s.ssFaults .popChk s.readSsp s.entryBytes = e :: es) :
    s.ssPopChk src n fallback = s.raiseSs e es s.readSsp := by
  rw [State.ssPopChk, if_pos hs, State.withSsAccess_fail h]

end

/-! ## The pops of the opcode table -/

section
variable {i : Instr} {src : RegIdx} {n : Nat} {fallbackOf : State → State}
variable (hexec : ∀ s, exec i s = .next (s.ssPopChk src n (fallbackOf s)))
include hexec

/-- An instruction that pops moves `ssp` where the entry is the register's value (41 R116). -/
theorem popCompletes_of_exec : PopCompletes i src n := by
  intro s hwf hs hfaults hmatch
  refine ⟨_, (hexec s).trans (congrArg _ (State.ssPopChk_match hs hfaults hmatch)), ?_, rfl, fun _ => rfl, fun _ => rfl,
    .refl s⟩
  rw [State.advance_readSsp, State.writeSsp_readSsp]
  exact State.legalSsp_popAddr hwf (State.aligned_of_ssFaults_nil hfaults)

/-- Where the entry is another value it takes the shadow stack fault (41 R114). -/
theorem popMismatches_of_exec : PopMismatches i src :=
  fun s hs hfaults hmismatch =>
    ⟨_, (hexec s).trans (congrArg _ (State.ssPopChk_mismatch hs hfaults hmismatch)),
      s.takeTrap_nothingWritten .softwareCheck 3, s.takeTrap_taken .softwareCheck 3⟩

/-- Where its access is refused it takes the reported fault, the entry unread (41 R115). -/
theorem popFaults_of_exec : PopFaults i :=
  fun s e es hs hfaults =>
    ⟨_, (hexec s).trans (congrArg _ (State.ssPopChk_fail hs hfaults)), s.raiseSs_addrTrap e es s.readSsp⟩

end

/-- Settles O27: each of the three is a pop. -/
theorem matchingPopMovesSsp : Obligations.MatchingPopMovesSsp :=
  ⟨popCompletes_of_exec fun _ => rfl, popCompletes_of_exec fun _ => rfl, popCompletes_of_exec fun _ => rfl⟩

/-- Settles O28: each of the three is a pop, and a mismatch takes the shadow stack fault; the codes are the table of
`Exc.code`. -/
theorem mismatchingPopRaisesSoftwareCheck : Obligations.MismatchingPopRaisesSoftwareCheck :=
  ⟨popMismatches_of_exec fun _ => rfl, popMismatches_of_exec fun _ => rfl, popMismatches_of_exec fun _ => rfl,
    by decide⟩

/-- Settles O29: each of the three is a pop, and a refused access takes the reported fault. -/
theorem faultingPopReportsTheLoad : Obligations.FaultingPopReportsTheLoad :=
  ⟨popFaults_of_exec fun _ => rfl, popFaults_of_exec fun _ => rfl, popFaults_of_exec fun _ => rfl⟩

end Sys2Proof.Machine
end

section
/-! PROOFS, the family of 41_sspopchk.md, part 2: a push followed by a pop. The push leaves all that a shadow-stack
access is checked against as it was, so what O25 says of the push gives what O27 asks before the pop. -/

namespace Sys2Proof.Machine

/-! ## What the frame `SameRest` keeps -/

section
variable {s t u : State}

theorem SameTrapState.trans (h : SameTrapState s t) (h' : SameTrapState t u) : SameTrapState s u := by
  unfold SameTrapState at *
  simp_all

theorem SameRest.trans (h : SameRest s t) (h' : SameRest t u) : SameRest s u :=
  let ⟨hplatform, htrap⟩ := h
  let ⟨hplatform', htrap'⟩ := h'
  ⟨hplatform.trans hplatform', htrap.trans htrap'⟩

/-- The frame leaves out the registers, `pc`, `ssp` and memory, and nothing else of the state. -/
theorem SameRest.eq_update (h : SameRest s t) : t = { s with x := t.x, pc := t.pc, ssp := t.ssp, mem := t.mem } := by
  unfold SameRest SamePlatform SameTables SameEnv SameTrapState at h
  cases s
  cases t
  simp_all

variable (h : SameRest s t)
include h

theorem SameRest.cfg : t.cfg = s.cfg := by rw [h.eq_update]

theorem SameRest.xSSE : t.xSSE = s.xSSE := by rw [h.eq_update]; rfl

theorem SameRest.entryBytes : t.entryBytes = s.entryBytes := by rw [h.eq_update]; rfl

/-- A shadow-stack access is checked against nothing the frame leaves out (20 R52). -/
theorem SameRest.ssFaults (op : SsOp) (va : Word) (n : Nat) : t.ssFaults op va n = s.ssFaults op va n := by
  rw [h.eq_update]; rfl

theorem SameRest.ssAddr (op : SsOp) (va : Word) (n : Nat) : t.ssAddr op va n = s.ssAddr op va n := by
  rw [h.eq_update]; rfl

end

/-! ## A pop after a push -/

/-- One entry down and one entry up is back at the same `ssp`, also where it wraps around. -/
theorem State.trunc_pushAddr_add (s : State) : s.trunc (s.pushAddr + BitVec.ofNat 64 s.entryBytes) = s.readSsp := by
  rw [State.pushAddr, State.trunc_add_trunc, BitVec.sub_add_cancel]
  exact s.trunc_legalSsp s.ssp

/-- The pop `j` after the push `i` finds the value pushed and restores `ssp` (41 R117, 70 R198). -/
def PopUndoesPush (i j : Instr) : Prop :=
  ∀ s : State, s.cfg.Wf → s.xSSE = true → s.ssFaults .push s.pushAddr s.entryBytes = [] →
    s.ssFaults .popChk s.pushAddr s.entryBytes = [] →
    s.ssAddr .popChk s.pushAddr s.entryBytes = s.ssAddr .push s.pushAddr s.entryBytes →
    ∃ t u, exec i s = .next t ∧ exec j t = .next u ∧ u.readSsp = s.readSsp ∧ u.mem = t.mem ∧ SameRegs s u ∧
      SameMemoryOutside (s.ssAddr .push s.pushAddr s.entryBytes) s.entryBytes s u ∧ SameRest s u

theorem popUndoesPush {i j : Instr} {src : RegIdx} {n m : Nat} (hpush : PushCompletes i src n)
    (hpop : PopCompletes j src m) (hj : ¬ WritesMemory j) : PopUndoesPush i j := by
  intro s hwf hs hpushFaults hpopFaults haddr
  obtain ⟨t, hexec, hentry, houtside, hssp, -, hregs, hrest⟩ := hpush s hwf hs hpushFaults
  have hpassed : t.ssFaults .popChk t.readSsp t.entryBytes = [] := by
    rw [hrest.ssFaults, hssp, hrest.entryBytes]
    exact hpopFaults
  have hmatch : Memory.load t.mem (t.ssAddr .popChk t.readSsp t.entryBytes) t.entryBytes = t.readX src := by
    rw [hrest.ssAddr, hssp, hrest.entryBytes, hregs src, ← hentry, ← haddr]
    rfl
  obtain ⟨u, hexec', hssp', -, hregs', -, hrest'⟩ :=
    hpop t (hrest.cfg.symm ▸ hwf) (hrest.xSSE.trans hs) hpassed hmatch
  have hmem : u.mem = t.mem := (exec_mem hexec').resolve_left hj
  refine ⟨t, u, hexec, hexec', ?_, hmem, fun r => (hregs' r).trans (hregs r), fun a ha => ?_, hrest.trans hrest'⟩
  · rw [hssp', hssp, hrest.entryBytes, State.trunc_congr hrest.cfg]
    exact s.trunc_pushAddr_add
  · rw [hmem]
    exact houtside a ha

/-- Settles O31: each pair is a push and a pop of the same register. -/
theorem popAfterPushRestoresSsp : Obligations.PopAfterPushRestoresSsp := by
  obtain ⟨push1, push5, cPush1⟩ := pushStoresAndMovesSsp
  obtain ⟨pop1, pop5, cPop5⟩ := matchingPopMovesSsp
  intro s i j hpair
  simp only [List.mem_cons, List.not_mem_nil, or_false, Prod.mk.injEq] at hpair
  rcases hpair with ⟨rfl, rfl⟩ | ⟨rfl, rfl⟩ | ⟨rfl, rfl⟩ | ⟨rfl, rfl⟩
  · exact popUndoesPush push1 pop1 (by simp [WritesMemory]) s
  · exact popUndoesPush cPush1 pop1 (by simp [WritesMemory]) s
  · exact popUndoesPush push5 pop5 (by simp [WritesMemory]) s
  · exact popUndoesPush push5 cPop5 (by simp [WritesMemory]) s

end Sys2Proof.Machine
end

section
/-! PROOFS, the family of 42_ssrdp.md, part 1: `SSRDP` writes one register, from `ssp` or with 0. -/

namespace Sys2Proof.Machine

theorem exec_ssrdp (s : State) (rd : RegIdx) :
    exec (.ssrdp rd) s = .next ((s.writeX rd (if s.xSSE then s.readSsp else 0)).advance 4) := by
  by_cases h : s.xSSE
  · simp only [exec, execSsrdp, if_pos h]
  · simp only [exec, execSsrdp, if_neg h, State.zimop]

/-- What `SSRDP` writes is an `XLEN`-bit value. -/
theorem State.trunc_ite_readSsp (s : State) (b : Bool) :
    s.trunc (if b then s.readSsp else 0) = if b then s.readSsp else 0 := by
  cases b
  · exact truncTo_zero _
  · exact s.trunc_legalSsp s.ssp

/-- Settles O32: `SSRDP` is one register write and the advance of `pc`; its word is among those of O2. -/
theorem ssrdpReadsSspOrZero : Obligations.SsrdpReadsSspOrZero := by
  intro s rd hrd
  obtain ⟨-, -, -, hwords⟩ := encodingsAreTheListedWords
  obtain ⟨hword, -⟩ := hwords rd 0
  have hwrites := s.onlyWrites_writeX_advance rd (if s.xSSE then s.readSsp else 0) 4
  rw [s.trunc_ite_readSsp] at hwrites
  obtain ⟨hread, hframe⟩ := hwrites
  exact ⟨hword, _, exec_ssrdp s rd, hread hrd, hframe⟩

end Sys2Proof.Machine
end

section
/-! PROOFS, the family of 42_ssrdp.md, part 2: what does not depend on `ssp`. `State.withSsp` puts another value in
`ssp`; each operation a step runs below M-mode with `xSSE` = 0 commutes with it, so no such step reveals `ssp`. -/

namespace Sys2Proof.Machine

/-- The state with another value in `ssp`, stored as it is. -/
def State.withSsp (s : State) (w : Word) : State := { s with ssp := w }

section
variable (s : State) (w : Word)

/-! ## What is read of a state with another `ssp` -/

@[simp] theorem State.withSsp_cfg : (s.withSsp w).cfg = s.cfg := rfl
@[simp] theorem State.withSsp_pc : (s.withSsp w).pc = s.pc := rfl
@[simp] theorem State.withSsp_priv : (s.withSsp w).priv = s.priv := rfl
@[simp] theorem State.withSsp_v : (s.withSsp w).v = s.v := rfl
@[simp] theorem State.withSsp_menvcfg : (s.withSsp w).menvcfg = s.menvcfg := rfl
@[simp] theorem State.withSsp_mem : (s.withSsp w).mem = s.mem := rfl
@[simp] theorem State.withSsp_trunc (u : Word) : (s.withSsp w).trunc u = s.trunc u := rfl
@[simp] theorem State.withSsp_pcAfter (n : Nat) : (s.withSsp w).pcAfter n = s.pcAfter n := rfl
@[simp] theorem State.withSsp_xSSE : (s.withSsp w).xSSE = s.xSSE := rfl
@[simp] theorem State.withSsp_ssAmoDenied : (s.withSsp w).ssAmoDenied = s.ssAmoDenied := rfl
@[simp] theorem State.withSsp_sspCsrDenied : (s.withSsp w).sspCsrDenied = s.sspCsrDenied := rfl
@[simp] theorem State.withSsp_sretDenied : (s.withSsp w).sretDenied = s.sretDenied := rfl
@[simp] theorem State.withSsp_envDenied (c : EnvCsr) : (s.withSsp w).envDenied c = s.envDenied c := rfl
@[simp] theorem State.withSsp_csrOperand (imm : Bool) (f : RegIdx) :
    (s.withSsp w).csrOperand imm f = s.csrOperand imm f := rfl
@[simp] theorem State.withSsp_trapTarget (e : Exc) : (s.withSsp w).trapTarget e = s.trapTarget e := rfl
@[simp] theorem State.withSsp_effMode : (s.withSsp w).effMode = s.effMode := rfl
@[simp] theorem State.withSsp_ordinaryByte (kind : AccessKind) (p : Priv) (v : Bool) (va : Word) :
    (s.withSsp w).ordinaryByte kind p v va = s.ordinaryByte kind p v va := rfl

@[simp] theorem State.withSsp_readEnv (c : EnvCsr) : (s.withSsp w).readEnv c = s.readEnv c := by
  cases c <;> rfl

@[simp] theorem State.withSsp_ordinaryBytes (kind : AccessKind) (p : Priv) (v : Bool) (va : Word) (n : Nat) :
    (s.withSsp w).ordinaryBytes kind p v va n = s.ordinaryBytes kind p v va n := by
  induction n generalizing va with
  | zero => rfl
  | succ n ih => simp only [State.ordinaryBytes, State.withSsp_ordinaryByte, State.withSsp_trunc, ih]

@[simp] theorem State.withSsp_memRead (va : Word) (n : Nat) : (s.withSsp w).memRead va n = s.memRead va n := by
  simp only [State.memRead, State.withSsp_effMode, State.withSsp_ordinaryBytes, State.withSsp_mem]

@[simp] theorem State.withSsp_fetch : (s.withSsp w).fetch = s.fetch := by
  simp only [State.fetch, State.fetchParcel, State.withSsp_ordinaryBytes, State.withSsp_priv, State.withSsp_v,
    State.withSsp_pc, State.withSsp_pcAfter, State.withSsp_mem]

/-! ## Operations that commute with another `ssp` -/

theorem State.withSsp_writeX_advance (r : RegIdx) (u : Word) (n : Nat) :
    ((s.withSsp w).writeX r u).advance n = ((s.writeX r u).advance n).withSsp w := rfl

theorem State.withSsp_noteGuestAddress (e : Exc) (target : Target) :
    (s.withSsp w).noteGuestAddress e target = (s.noteGuestAddress e target).withSsp w := by
  unfold State.noteGuestAddress
  split
  · cases target <;> rfl
  · rfl

theorem State.withSsp_takeTrap (e : Exc) (tval : Word) :
    (s.withSsp w).takeTrap e tval = (s.takeTrap e tval).withSsp w := by
  unfold State.takeTrap
  rw [State.withSsp_trapTarget]
  cases s.trapTarget e with
  | m => exact (s.enterM e tval).withSsp_noteGuestAddress w e .m
  | s => exact (s.enterS e tval).withSsp_noteGuestAddress w e .s
  | vs => exact (s.enterVs e tval).withSsp_noteGuestAddress w e .vs

theorem State.withSsp_raiseAddr (e : Exc) (va : Word) :
    (s.withSsp w).raiseAddr e va = (s.raiseAddr e va).withSsp w := s.withSsp_takeTrap w e _

theorem State.withSsp_raiseInsn (e : Exc) (word : BitVec 32) :
    (s.withSsp w).raiseInsn e word = (s.raiseInsn e word).withSsp w := s.withSsp_takeTrap w e _

theorem State.withSsp_writeMenvcfg (u : Word) : (s.withSsp w).writeMenvcfg u = (s.writeMenvcfg u).withSsp w := by
  have hmerge : (s.withSsp w).mergeEnv s.menvcfg u = s.mergeEnv s.menvcfg u := rfl
  simp only [State.writeMenvcfg, State.withSsp_cfg, State.withSsp_menvcfg, hmerge]
  split
  · rfl
  · split <;> rfl

theorem State.withSsp_writeEnv (c : EnvCsr) (u : Word) :
    (s.withSsp w).writeEnv c u = (s.writeEnv c u).withSsp w := by
  cases c
  case menvcfg => exact s.withSsp_writeMenvcfg w u
  all_goals rfl

theorem State.withSsp_envAfter (c : EnvCsr) (new : Option Word) :
    (s.withSsp w).envAfter c new = (s.envAfter c new).withSsp w := by
  cases new with
  | none => rfl
  | some u => exact s.withSsp_writeEnv w c u

/-! ## The base instructions -/

theorem State.withSsp_csrEnv (c : EnvCsr) (rd : RegIdx) (new : Option Word) (word : BitVec 32) :
    (s.withSsp w).csrEnv c rd new word = (s.csrEnv c rd new word).withSsp w := by
  have hdenied := s.withSsp_envDenied w c
  cases h : s.envDenied c with
  | some e =>
    rw [s.csrEnv_of_denied h, (s.withSsp w).csrEnv_of_denied (hdenied.trans h)]
    exact s.withSsp_raiseInsn w e word
  | none =>
    rw [s.csrEnv_of_allowed h, (s.withSsp w).csrEnv_of_allowed (hdenied.trans h), State.withSsp_envAfter,
      State.withSsp_readEnv, State.withSsp_writeX_advance]

theorem State.withSsp_mret : (s.withSsp w).mret = s.mret.withSsp w := by
  rcases s.mret_cases with ⟨hp, h⟩ | ⟨hp, h⟩
  · rw [h]
    exact if_pos hp
  · rw [h, ← State.withSsp_raiseInsn]
    exact if_neg hp

theorem State.withSsp_sret : (s.withSsp w).sret = s.sret.withSsp w := by
  cases hd : s.sretDenied with
  | some e =>
    simp only [State.sret, State.withSsp_sretDenied, hd]
    exact s.withSsp_raiseInsn w e _
  | none =>
    simp only [State.sret, State.withSsp_sretDenied, State.withSsp_v, hd]
    exact (apply_ite (State.withSsp · w) (s.v = true) s.returnVs s.returnS).symm

theorem State.withSsp_loadTo (rd : RegIdx) (va : Word) (k : Nat) (ext : Word → Word) (n : Nat) :
    (s.withSsp w).loadTo rd va k ext n = (s.loadTo rd va k ext n).withSsp w := by
  simp only [State.loadTo, State.withSsp_memRead]
  cases s.memRead va k with
  | error f => exact s.withSsp_raiseAddr w f.1 f.2
  | ok u => rfl

theorem State.withSsp_storeFrom (va : Word) (k : Nat) (u : Word) (n : Nat) :
    (s.withSsp w).storeFrom va k u n = (s.storeFrom va k u n).withSsp w := by
  simp only [State.storeFrom, State.memWrite, State.withSsp_effMode, State.withSsp_ordinaryBytes]
  cases s.ordinaryBytes .store s.effMode.1 s.effMode.2 va k with
  | error f => exact s.withSsp_raiseAddr w f.1 f.2
  | ok as => rfl

theorem State.withSsp_branchEq (rs1 rs2 : RegIdx) (off : Word) :
    (s.withSsp w).branchEq rs1 rs2 off = (s.branchEq rs1 rs2 off).withSsp w :=
  (apply_ite (State.withSsp · w) (s.readX rs1 = s.readX rs2) { s with pc := s.trunc (s.pc + off) }
    (s.advance 4)).symm

/-- No base instruction depends on `ssp`, in any mode. -/
theorem State.withSsp_execBase (b : BaseInstr) : (s.withSsp w).execBase b = (s.execBase b).withSsp w := by
  cases b
  case mret => exact s.withSsp_mret w
  case sret => exact s.withSsp_sret w
  case csrEnv op imm c rd f =>
    simp only [State.execBase, State.withSsp_readEnv, State.withSsp_csrOperand]
    exact s.withSsp_csrEnv w c rd _ _
  case unimp => exact s.withSsp_raiseInsn w _ _
  case lw | ld | cLdsp => exact s.withSsp_loadTo w ..
  case sd | cSdsp => exact s.withSsp_storeFrom w ..
  case beq => exact s.withSsp_branchEq w ..
  case addi | cAddi | ret | cJr => rfl

end

/-! ## Below M-mode, Zicfiss inactive -/

section
variable {s : State}

theorem State.hasS_of_menvcfgSse (h : s.menvcfgSse = true) : s.cfg.hasS = true :=
  (Bool.and_eq_true_iff.1 h).1

/-- Under the `menvcfg` gate Zicfiss is active in no mode (10 R24). -/
theorem State.xSSE_of_menvcfgSse_false (h : s.menvcfgSse = false) : s.xSSE = false := by
  obtain ⟨hh, hs⟩ := State.sse_of_menvcfgSse_false h
  unfold State.xSSE
  split
  · rfl
  · split
    · rfl
    · exact h
    · exact hh
    · exact hs _

/-- Below M-mode a CSR instruction may access `ssp` where Zicfiss is active, and nowhere else (45 R146). -/
theorem State.sspCsrDenied_eq_none_iff (hp : s.priv ≠ .machine) : s.sspCsrDenied = none ↔ s.xSSE = true := by
  cases hm : s.menvcfgSse with
  | false => simp [State.sspCsrDenied, State.xSSE_of_menvcfgSse_false hm, hm, hp]
  | true =>
    have hS := State.hasS_of_menvcfgSse hm
    cases hpriv : s.priv with
    | machine => exact absurd hpriv hp
    | supervisor => cases hv : s.v <;> simp [State.sspCsrDenied, State.xSSE_of_supervisor hS hpriv, hm, hpriv, hv]
    | user =>
      cases hv : s.v <;>
        simp [State.sspCsrDenied, State.xSSE_of_user hS hpriv, hm, hpriv, hv, s.senvcfgSse_true]

/-- Below M-mode the swap and the CSR instructions on `ssp` are denied alike (43 R126, 45 R146). -/
theorem State.ssAmoDenied_eq_sspCsrDenied (hp : s.priv ≠ .machine) : s.ssAmoDenied = s.sspCsrDenied := by
  unfold State.ssAmoDenied State.sspCsrDenied
  cases hm : s.menvcfgSse with
  | false => simp [hp]
  | true =>
    have hS := State.hasS_of_menvcfgSse hm
    cases s.priv <;> cases s.v <;> simp [hS, s.senvcfgSse_true]

theorem State.ssAmoSwap_of_denied (s : State) {e : Exc} (h : s.ssAmoDenied = some e) (n : Nat) (ext : Word → Word)
    (rd rs2 rs1 : RegIdx) (word : BitVec 32) : s.ssAmoSwap n ext rd rs2 rs1 word = s.raiseInsn e word := by
  simp only [State.ssAmoSwap, h]

theorem State.csrSsp_of_denied (s : State) {e : Exc} (h : s.sspCsrDenied = some e) (rd : RegIdx) (new : Option Word)
    (word : BitVec 32) : s.csrSsp rd new word = s.raiseInsn e word := by
  simp only [State.csrSsp, h]

theorem State.withSsp_ssAmoSwap (hd : s.ssAmoDenied ≠ none) (w : Word) (n : Nat) (ext : Word → Word)
    (rd rs2 rs1 : RegIdx) (word : BitVec 32) :
    (s.withSsp w).ssAmoSwap n ext rd rs2 rs1 word = (s.ssAmoSwap n ext rd rs2 rs1 word).withSsp w := by
  obtain ⟨e, he⟩ := Option.ne_none_iff_exists'.1 hd
  rw [s.ssAmoSwap_of_denied he, (s.withSsp w).ssAmoSwap_of_denied ((s.withSsp_ssAmoDenied w).trans he),
    State.withSsp_raiseInsn]

/-- The value to be written may depend on `ssp`; where the access is denied it is not used. -/
theorem State.withSsp_csrSsp (hd : s.sspCsrDenied ≠ none) (w : Word) (rd : RegIdx) (new new' : Option Word)
    (word : BitVec 32) : (s.withSsp w).csrSsp rd new' word = (s.csrSsp rd new word).withSsp w := by
  obtain ⟨e, he⟩ := Option.ne_none_iff_exists'.1 hd
  rw [s.csrSsp_of_denied he, (s.withSsp w).csrSsp_of_denied ((s.withSsp_sspCsrDenied w).trans he),
    State.withSsp_raiseInsn]

/-- Below M-mode with `xSSE` = 0 an instruction of the opcode table is a May-Be-Operation (44 R140) or raises an
exception (43 R126, 45 R146), and neither depends on `ssp`. -/
theorem exec_withSsp {t : State} (hp : s.priv ≠ .machine) (hs : s.xSSE = false) (w : Word) {i : Instr}
    (h : exec i s = .next t) : exec i (s.withSsp w) = .next (t.withSsp w) := by
  have hcsr : s.sspCsrDenied ≠ none := fun hn =>
    Bool.false_ne_true (hs.symm.trans ((State.sspCsrDenied_eq_none_iff hp).1 hn))
  have hamo : s.ssAmoDenied ≠ none := State.ssAmoDenied_eq_sspCsrDenied hp ▸ hcsr
  rw [← exec_inactiveReading hs] at h
  rw [← exec_inactiveReading ((s.withSsp_xSSE w).trans hs)]
  cases i
  case ssamoswapW => cases h; exact congrArg _ (State.withSsp_ssAmoSwap hamo w ..)
  case ssamoswapD =>
    simp only [inactiveReading, exec, execSsamoswapD, State.withSsp_cfg] at h ⊢
    cases hx : s.cfg.xlen <;> rw [hx] at h <;> cases h
    case rv32 => exact congrArg _ (s.withSsp_raiseInsn w ..)
    case rv64 => exact congrArg _ (State.withSsp_ssAmoSwap hamo w ..)
  case csrrwSsp | csrrsSsp | csrrcSsp | csrrwiSsp | csrrsiSsp | csrrciSsp =>
    cases h
    exact congrArg _ (State.withSsp_csrSsp hcsr w ..)
  case sspushX1 | sspushX5 | cSspushX1 | sspopchkX1 | sspopchkX5 | cSspopchkX5 | ssrdp => cases h; rfl
  case mopRr7 | mopR28 | cMop1 | cMop5 => cases h; rfl

/-- Fetch and decoding do not depend on `ssp`, so a step runs the same instruction, whatever `ssp` holds. -/
theorem step_withSsp {t : State} (hp : s.priv ≠ .machine) (hs : s.xSSE = false) (w : Word)
    (h : step s = .next t) : step (s.withSsp w) = .next (t.withSsp w) := by
  cases hf : s.fetch with
  | error f =>
    obtain ⟨e, va⟩ := f
    cases (step_of_fetch_error hf).symm.trans h
    rw [step_of_fetch_error ((s.withSsp_fetch w).trans hf), State.withSsp_raiseAddr]
  | ok bytes =>
    have hf' := (s.withSsp_fetch w).trans hf
    cases hd : decode s.xSSE bytes with
    | ok i rest => exact (step_of_decode hf' hd).trans (exec_withSsp hp hs w ((step_of_decode hf hd).symm.trans h))
    | reject why =>
      cases hb : decodeBase s.cfg.xlen bytes with
      | some b =>
        cases (step_of_decodeBase hf hd hb).symm.trans h
        rw [step_of_decodeBase hf' hd hb, State.withSsp_execBase]
      | none => cases (step_of_decodeBase_none hf hd hb).symm.trans h

end

/-- Settles O56: what runs below M-mode with `xSSE` = 0 commutes with putting another value in `ssp`. -/
theorem inactiveModesCannotReadSsp : Obligations.InactiveModesCannotReadSsp :=
  fun _ _ w hp hs => ⟨fun _ => exec_withSsp hp hs w, step_withSsp hp hs w⟩

end Sys2Proof.Machine
end

section
/-! PROOFS, the family of 43_ssamoswap.md, part 1: where a swap may execute, mode by mode. -/

namespace Sys2Proof.Machine

/-! ## The enabling check (43 R126) -/

section
variable {s : State}

theorem State.ssAmoDenied_of_not_hasS (hS : s.cfg.hasS = false) : s.ssAmoDenied = some .illegalInstruction := by
  simp [State.ssAmoDenied, hS]

/-- In M-mode no `SSE` field is consulted. -/
theorem State.ssAmoDenied_of_machine (hS : s.cfg.hasS = true) (hp : s.priv = .machine) : s.ssAmoDenied = none := by
  simp [State.ssAmoDenied, hS, hp]

theorem State.ssAmoDenied_of_menvcfgSse_false (hp : s.priv ≠ .machine) (hm : s.menvcfgSse = false) :
    s.ssAmoDenied = some .illegalInstruction := by
  simp [State.ssAmoDenied, hp, hm]

theorem State.ssAmoDenied_of_supervisor (hm : s.menvcfgSse = true) (hp : s.priv = .supervisor) :
    s.ssAmoDenied = if s.v then (if s.henvcfgSse then none else some .virtualInstruction) else none := by
  have hS := State.hasS_of_menvcfgSse hm
  unfold State.ssAmoDenied
  cases hv : s.v <;> simp [hp, hm, hS]

theorem State.ssAmoDenied_of_user (hm : s.menvcfgSse = true) (hp : s.priv = .user) :
    s.ssAmoDenied =
      if s.senvcfgSse s.v then none else some (if s.v then .virtualInstruction else .illegalInstruction) := by
  have hS := State.hasS_of_menvcfgSse hm
  unfold State.ssAmoDenied
  cases hv : s.v <;> simp [hp, hm, hS]

end

/-- Settles O54: the two checks agree below M-mode, and the second asks for `xSSE`. -/
theorem enabledExactlyWhereActive : Obligations.EnabledExactlyWhereActive := by
  intro s hp
  have hcsr := State.sspCsrDenied_eq_none_iff hp
  exact ⟨State.ssAmoDenied_eq_sspCsrDenied hp ▸ hcsr, hcsr⟩

end Sys2Proof.Machine
end

section
/-! PROOFS, the family of 43_ssamoswap.md, part 2: what a swap does. It has three outcomes: it may not execute in the
mode and raises, its access is refused, or it swaps. -/

namespace Sys2Proof.Machine

/-! ## The outcomes of a swap -/

section
variable {s : State} {n : Nat} {ext : Word → Word} {rd rs2 rs1 : RegIdx} {word : BitVec 32}
variable (hd : s.ssAmoDenied = none)
include hd

/-- Address and data are those of `s`: neither depends on the write of `x[rd]` (43 R133). -/
theorem State.ssAmoSwap_pass (h : s.ssFaults .amoSwap (s.readX rs1) n = []) :
    s.ssAmoSwap n ext rd rs2 rs1 word =
      ((s.storeAt (s.ssAddr .amoSwap (s.readX rs1) n) n (s.readX rs2)).writeX rd
        (ext (s.mem.load (s.ssAddr .amoSwap (s.readX rs1) n) n))).advance 4 := by
  simp only [State.ssAmoSwap, hd, State.withSsAccess_pass h]

theorem State.ssAmoSwap_fail {e : Exc} {es : List Exc} (h : s.ssFaults .amoSwap (s.readX rs1) n = e :: es) :
    s.ssAmoSwap n ext rd rs2 rs1 word = s.raiseSs e es (s.readX rs1) := by
  simp only [State.ssAmoSwap, hd, State.withSsAccess_fail h]

end

/-! ## The swaps of the opcode table -/

theorem exec_ssamoswapW (s : State) (rd rs2 rs1 : RegIdx) (aq rl : Bool) :
    exec (.ssamoswapW rd rs2 rs1 aq rl) s =
      .next (s.ssAmoSwap 4 sext32 rd rs2 rs1 (encodeWord (.ssamoswapW rd rs2 rs1 aq rl))) := rfl

theorem exec_ssamoswapD {s : State} (hx : s.cfg.xlen = .rv64) (rd rs2 rs1 : RegIdx) (aq rl : Bool) :
    exec (.ssamoswapD rd rs2 rs1 aq rl) s =
      .next (s.ssAmoSwap 8 id rd rs2 rs1 (encodeWord (.ssamoswapD rd rs2 rs1 aq rl))) := by
  simp only [exec, execSsamoswapD, hx]

section
variable {i : Instr} {s : State} {n : Nat} {ext : Word → Word} {rd rs2 rs1 : RegIdx}
variable (hexec : exec i s = .next (s.ssAmoSwap n ext rd rs2 rs1 (encodeWord i)))
include hexec

/-- Where nothing applies a swap is a store of `x[rs2]` and a write of the old value to `x[rd]` (43 R125, R128). -/
theorem swapCompletes_of_exec : SwapCompletes i n (fun old => s.trunc (ext old)) rd rs2 rs1 s := by
  intro hd hfaults
  obtain ⟨hread, hregs, hssp, hmem, hpc, hrest⟩ :=
    (s.storeAt (s.ssAddr .amoSwap (s.readX rs1) n) n (s.readX rs2)).onlyWrites_writeX_advance rd
      (ext (s.mem.load (s.ssAddr .amoSwap (s.readX rs1) n) n)) 4
  exact ⟨_, hexec.trans (congrArg _ (State.ssAmoSwap_pass hd hfaults)), hread, hregs,
    fun k hk => (hmem _).trans (Memory.read_store_inside n s.mem _ _ k hk),
    fun a ha => (hmem a).trans (Memory.read_store_outside n s.mem _ _ a ha), hssp, hpc, hrest⟩

/-- Where its access is refused it takes the reported fault (43 R132). -/
theorem swapFaults_of_exec : SwapFaults i n rs1 s := fun e es hd hfaults =>
  ⟨_, hexec.trans (congrArg _ (State.ssAmoSwap_fail hd hfaults)), s.raiseSs_addrTrap e es (s.readX rs1)⟩

/-- Where it may not execute it takes the exception of the enabling check (43 R126). -/
theorem swapTraps_of_exec {e : Exc} (hd : s.ssAmoDenied = some e) : ∃ t, exec i s = .next t ∧ InsnTrap s e i t :=
  ⟨_, hexec.trans (congrArg _ (s.ssAmoSwap_of_denied hd n ext rd rs2 rs1 _)), s.raiseInsn_wordTrap e _⟩

end

/-- Settles O35: the check mode by mode, each field as read being its stored bit under its gates. -/
theorem swapEnabledByMode : Obligations.SwapEnabledByMode := by
  intro s
  refine ⟨State.ssAmoDenied_of_not_hasS, fun hS => ?_, fun e hd rd rs2 rs1 aq rl =>
    ⟨swapTraps_of_exec (exec_ssamoswapW s rd rs2 rs1 aq rl) hd,
      fun hx => swapTraps_of_exec (exec_ssamoswapD hx rd rs2 rs1 aq rl) hd⟩⟩
  rw [← State.menvcfgSse_of_hasS hS]
  refine ⟨State.ssAmoDenied_of_machine hS, State.ssAmoDenied_of_menvcfgSse_false, fun hm =>
    ⟨fun hp hv => ?_, fun hp hv => ?_, fun hp hv => ?_, fun hp hv => ?_⟩⟩
  · simp [State.ssAmoDenied_of_supervisor hm hp, hv]
  · simp [State.ssAmoDenied_of_user hm hp, hv, s.senvcfgSse_false, hm]
  · simp [State.ssAmoDenied_of_supervisor hm hp, hv, s.henvcfgSse_eq, hm]
  · simp [State.ssAmoDenied_of_user hm hp, hv, s.senvcfgSse_true, s.henvcfgSse_eq, hm]

/-- Settles O36: the word form is a swap of four bytes. -/
theorem wordSwapCompletes : Obligations.WordSwapCompletes := fun s rd rs2 rs1 aq rl =>
  swapCompletes_of_exec (exec_ssamoswapW s rd rs2 rs1 aq rl)

/-- Settles O37: on RV64 the doubleword form is a swap of eight bytes, and the old value needs no truncation. -/
theorem doublewordSwapCompletes : Obligations.DoublewordSwapCompletes := by
  intro s rd rs2 rs1 aq rl hx
  have htrunc : (fun old => s.trunc (id old)) = fun old => old := by
    funext old
    simp only [State.trunc, hx, truncTo, id]
  exact htrunc ▸ swapCompletes_of_exec (exec_ssamoswapD hx rd rs2 rs1 aq rl)

/-- Settles O39: both forms are swaps, and a refused access takes the reported fault. -/
theorem faultingSwapWritesNothing : Obligations.FaultingSwapWritesNothing := fun s rd rs2 rs1 aq rl =>
  ⟨swapFaults_of_exec (exec_ssamoswapW s rd rs2 rs1 aq rl),
    fun hx => swapFaults_of_exec (exec_ssamoswapD hx rd rs2 rs1 aq rl)⟩

/-! ## In M-mode (43 R129) -/

/-- The effective mode is M, unless `MPRV` lowers it. -/
theorem State.effMode_machine {s : State} (hp : s.priv = .machine)
    (h : s.mstatus.mprv = false ∨ s.mstatus.mpp = .machine) : s.effMode.1 = .machine := by
  cases hmprv : s.mstatus.mprv
  case false => rw [State.effMode_of_current (.inr hmprv), hp]
  case true => rw [State.effMode_of_mprv hp hmprv, h.resolve_left (by simp [hmprv])]

/-- In effective M-mode one fault applies to an aligned access, whatever translation is. -/
theorem State.ssFaults_of_machine {s : State} {op : SsOp} {va : Word} {n : Nat} (ha : va.toNat % n = 0)
    (hm : s.effMode.1 = .machine) : s.ssFaults op va n = [.storeAccessFault] := by
  simp [State.ssFaults_of_aligned ha, State.placeFaults, hm]

/-- A fault that applies alone is the one reported. -/
theorem State.reported_nil (s : State) (e : Exc) : s.reported e [] = e :=
  List.mem_singleton.1 (s.reported_mem e [])

/-- A swap that is enabled and aligned in effective M-mode takes a store/AMO access fault. -/
theorem SwapFaults.of_machine {i : Instr} {n : Nat} {rs1 : RegIdx} {s : State} (h : SwapFaults i n rs1 s)
    (hd : s.ssAmoDenied = none) (hm : s.effMode.1 = .machine) (ha : (s.readX rs1).toNat % n = 0) :
    ∃ t, exec i s = .next t ∧ AddrTrap s .storeAccessFault (s.readX rs1) t :=
  s.reported_nil .storeAccessFault ▸ h _ _ hd (State.ssFaults_of_machine ha hm)

/-- With `MPRV` lowering it, the effective mode is that of the state in the previous mode (log entry 24). -/
theorem AccessesAsPrevious.effMode {s : State} (h : AccessesAsPrevious s) :
    { s with priv := s.mstatus.mpp, v := s.cfg.hasH && s.mstatus.mpv }.effMode = s.effMode := by
  obtain ⟨hp, hmprv, hmpp⟩ := h
  rw [State.effMode_of_mprv hp hmprv, bne_iff_ne.2 hmpp, Bool.true_and]
  exact State.effMode_of_current (.inl hmpp)

section
variable {s : State} {p : Priv} {v : Bool} (h : { s with priv := p, v := v }.effMode = s.effMode)
include h

/-- A shadow-stack access is checked against the effective mode, and asks nothing else of the current one. -/
theorem State.ssFaults_of_effMode_eq (op : SsOp) (va : Word) (n : Nat) :
    { s with priv := p, v := v }.ssFaults op va n = s.ssFaults op va n := by
  unfold State.ssFaults State.placeFaults
  rw [h]
  rfl

theorem State.ssAddr_of_effMode_eq (op : SsOp) (va : Word) (n : Nat) :
    { s with priv := p, v := v }.ssAddr op va n = s.ssAddr op va n := by
  unfold State.ssAddr
  rw [h]
  rfl

end

/-- Settles O40: in effective M-mode the one fault that applies is an access fault; with `MPRV` the effective mode is
the previous mode, and the access depends on it alone. -/
theorem machineModeSwapFaults : Obligations.MachineModeSwapFaults := by
  intro s rd rs2 rs1 aq rl hS hp
  have hd := State.ssAmoDenied_of_machine hS hp
  obtain ⟨hword, hdouble⟩ := faultingSwapWritesNothing s rd rs2 rs1 aq rl
  constructor
  · intro h
    have hm := State.effMode_machine hp h
    exact ⟨hword.of_machine hd hm, fun hx => (hdouble hx).of_machine hd hm⟩
  · rintro h va n u rfl
    exact ⟨(State.ssFaults_of_effMode_eq h.effMode .amoSwap va n).symm,
      (State.ssAddr_of_effMode_eq h.effMode .amoSwap va n).symm⟩

end Sys2Proof.Machine
end

section
/-! PROOFS, the family of 44_mop_fallback.md: what the May-Be-Operations write, and what is left alone below M-mode with
`xSSE` = 0, where the pushes are May-Be-Operations and the swaps are denied. -/

namespace Sys2Proof.Machine

/-! ## The May-Be-Operations -/

theorem State.onlyWrites_zimop (s : State) (rd : RegIdx) : OnlyWrites s rd 0 4 (s.zimop rd) :=
  truncTo_zero s.cfg.xlen ▸ s.onlyWrites_writeX_advance rd 0 4

/-- The register written with 0 reads 0, also if it is `x0`, where the write is discarded. -/
theorem OnlyWrites.readX_eq_zero {s t : State} {rd : RegIdx} {n : Nat} (h : OnlyWrites s rd 0 n t) :
    t.readX rd = 0 := by
  obtain ⟨hread, -⟩ := h
  by_cases hrd : rd = 0
  · rw [hrd, t.readX_zero]
  · exact hread hrd

/-- Settles O33: both are one register write of 0 and the advance of `pc`. -/
theorem mopsWriteZero : Obligations.MopsWriteZero := by
  intro s i rd rs1 rs2 hi
  obtain ⟨-, hframe⟩ := s.onlyWrites_zimop rd
  have hexec : exec i s = .next (s.zimop rd) := by
    rcases hi with rfl | rfl
    · rfl
    · rfl
  exact ⟨_, hexec, (s.onlyWrites_zimop rd).readX_eq_zero, hframe⟩

/-- Settles O34: both are the advance of `pc` alone. -/
theorem compressedMopsOnlyAdvance : Obligations.CompressedMopsOnlyAdvance := fun _ => ⟨rfl, rfl⟩

/-! ## Memory below M-mode, Zicfiss inactive -/

section
variable {s t : State} {i : Instr}

theorem InactiveOnlyAdvances.sameMemory {n : Nat} (hi : InactiveOnlyAdvances i n) (hs : s.xSSE = false)
    (h : exec i s = .next t) : SameMemory s t := by
  cases (hi s hs).symm.trans h
  exact fun _ => rfl

/-- A swap that is denied traps, the doubleword form on RV32 with the exception of 30 R90. -/
theorem deniedSwap_traps {rd rs2 rs1 : RegIdx} {aq rl : Bool} (hd : s.ssAmoDenied ≠ none)
    (hi : i = .ssamoswapW rd rs2 rs1 aq rl ∨ i = .ssamoswapD rd rs2 rs1 aq rl) :
    ∃ e t, exec i s = .next t ∧ InsnTrap s e i t := by
  obtain ⟨e, he⟩ := Option.ne_none_iff_exists'.1 hd
  obtain ⟨-, -, htraps⟩ := swapEnabledByMode s
  obtain ⟨hword, hdouble⟩ := htraps e he rd rs2 rs1 aq rl
  rcases hi with rfl | rfl
  · exact ⟨e, hword⟩
  · cases hx : s.cfg.xlen with
    | rv32 => exact ⟨.illegalInstruction, doublewordSwapIsIllegalOnRv32 s rd rs2 rs1 aq rl hx⟩
    | rv64 => exact ⟨e, hdouble hx⟩

theorem InsnTrap.sameMemory {e : Exc} (h : InsnTrap s e i t) : SameMemory s t := by
  obtain ⟨⟨-, -, hmem, -⟩, -⟩ := h
  exact hmem

/-- Of the instructions that can write memory, the pushes only advance (44 R140) and the swaps trap (43 R126). -/
theorem exec_sameMemory_of_inactive (hp : s.priv ≠ .machine) (hs : s.xSSE = false) (h : exec i s = .next t) :
    SameMemory s t := by
  obtain ⟨push1, push5, cPush1, -⟩ := inactivePushAndPopOnlyAdvance
  rcases exec_mem h with (rfl | rfl | rfl | ⟨rd, rs2, rs1, aq, rl, hswap⟩) | hmem
  · exact push1.sameMemory hs h
  · exact push5.sameMemory hs h
  · exact cPush1.sameMemory hs h
  · obtain ⟨henabled, -⟩ := enabledExactlyWhereActive s hp
    have hdenied : s.ssAmoDenied ≠ none := by simp [henabled, hs]
    obtain ⟨e, u, hexec, htrap⟩ := deniedSwap_traps hdenied hswap
    cases hexec.symm.trans h
    exact htrap.sameMemory
  · exact sameMemory_of_mem_eq hmem

/-- A step that writes memory runs a base store, as no instruction of the opcode table does. -/
theorem step_sameMemory_of_inactive (hp : s.priv ≠ .machine) (hs : s.xSSE = false) (h : step s = .next t) :
    SameMemory s t ∨ ∃ bytes, s.fetch = .ok bytes ∧ IsBaseStore s bytes := by
  rcases step_mem h with hmem | ⟨bytes, hfetch, ⟨i, rest, hdecode, -⟩ | hstore⟩
  · exact .inl (sameMemory_of_mem_eq hmem)
  · exact .inl (exec_sameMemory_of_inactive hp hs ((step_of_decode hfetch hdecode).symm.trans h))
  · exact .inr ⟨bytes, hfetch, hstore⟩

/-! ## `ssp` below M-mode, Zicfiss inactive

What runs commutes with putting any value in `ssp`; for the value `ssp` has already, this says that it is kept. -/

@[simp] theorem State.withSsp_ssp (s : State) (w : Word) : (s.withSsp w).ssp = w := rfl

theorem exec_ssp_of_inactive (hp : s.priv ≠ .machine) (hs : s.xSSE = false) (h : exec i s = .next t) :
    t.ssp = s.ssp :=
  have hself : t = t.withSsp s.ssp := Host.Outcome.next.inj (h.symm.trans (exec_withSsp hp hs s.ssp h))
  (congrArg State.ssp hself).trans (t.withSsp_ssp s.ssp)

theorem step_ssp_of_inactive (hp : s.priv ≠ .machine) (hs : s.xSSE = false) (h : step s = .next t) :
    t.ssp = s.ssp :=
  have hself : t = t.withSsp s.ssp := Host.Outcome.next.inj (h.symm.trans (step_withSsp hp hs s.ssp h))
  (congrArg State.ssp hself).trans (t.withSsp_ssp s.ssp)

end

/-- Settles O55: `ssp` and memory, each for the instructions of the opcode table and for the steps. -/
theorem inactiveModesLeaveShadowStackAlone : Obligations.InactiveModesLeaveShadowStackAlone := fun _ _ hp hs =>
  ⟨fun _ h => ⟨exec_ssp_of_inactive hp hs h, exec_sameMemory_of_inactive hp hs h⟩,
    fun h => ⟨step_ssp_of_inactive hp hs h, step_sameMemory_of_inactive hp hs h⟩⟩

end Sys2Proof.Machine
end

section
/-! PROOFS, the family of 45_csr_access.md: where `ssp` may be accessed, and what a CSR instruction on it does. Below
M-mode the check is the swap's (`State.ssAmoDenied_eq_sspCsrDenied`), so what 43 R126 says of each mode holds here. -/

namespace Sys2Proof.Machine

/-! ## The access check (45 R146) -/

/-- In M-mode no `SSE` field is consulted, with or without S-mode. -/
theorem State.sspCsrDenied_of_machine {s : State} (hp : s.priv = .machine) : s.sspCsrDenied = none := by
  simp [State.sspCsrDenied, hp]

/-- Below M-mode whatever holds of the swap's check holds of this one. -/
theorem State.sspCsrDenied_of_ssAmoDenied {s : State} {p : Priv} {d : Option Exc} (hp : s.priv = p)
    (hne : p ≠ .machine) (h : s.ssAmoDenied = d) : s.sspCsrDenied = d :=
  (State.ssAmoDenied_eq_sspCsrDenied (hp ▸ hne)).symm.trans h

/-! ## The outcomes of a CSR instruction on `ssp` -/

/-- The state after the write of a CSR instruction, if it writes, and before `x[rd]` receives the old value. -/
def State.sspAfter (s : State) (new : Option Word) : State := new.elim s s.writeSsp

/-- The old value is that of `s`: it does not depend on the write. -/
theorem State.csrSsp_of_allowed {s : State} (hd : s.sspCsrDenied = none) (rd : RegIdx) (new : Option Word)
    (word : BitVec 32) : s.csrSsp rd new word = ((s.sspAfter new).writeX rd s.readSsp).advance 4 := by
  simp only [State.csrSsp, hd]
  cases new <;> rfl

/-- The write reaches `ssp` alone. -/
theorem State.sspAfter_frame (s : State) (new : Option Word) : ∃ w, s.sspAfter new = { s with ssp := w } := by
  cases new with
  | none => exact ⟨s.ssp, rfl⟩
  | some w => exact ⟨s.legalSsp w, rfl⟩

theorem State.sspAfter_readSsp (s : State) (new : Option Word) :
    (s.sspAfter new).readSsp = new.elim s.readSsp s.legalSsp := by
  cases new with
  | none => rfl
  | some w => exact s.writeSsp_readSsp w

/-- What an allowed CSR instruction leaves: `ssp` as its write left it, the old value in `x[rd]`, and all else as it was
but `pc`. -/
theorem State.sspAfter_writeX_advance (s : State) (new : Option Word) (rd : RegIdx) {t : State}
    (ht : t = ((s.sspAfter new).writeX rd s.readSsp).advance 4) :
    t.readSsp = new.elim s.readSsp s.legalSsp ∧ (rd ≠ 0 → t.readX rd = s.readSsp) ∧ SameRegsBut rd s t ∧
      SameMemory s t ∧ t.pc = s.pcAfter 4 ∧ SameRest s t := by
  have hwrites := (s.sspAfter new).onlyWrites_writeX_advance rd s.readSsp 4
  rw [← ht] at hwrites
  obtain ⟨hread, hregs, hssp, hmem, hpc, hrest⟩ := hwrites
  rw [s.sspAfter_readSsp] at hssp
  obtain ⟨w, hw⟩ := s.sspAfter_frame new
  rw [hw] at hread hregs hmem hpc hrest
  exact ⟨hssp, fun hrd => (hread hrd).trans (s.trunc_legalSsp s.ssp), hregs, hmem, hpc, hrest⟩

section
variable {i : Instr} {rd : RegIdx}

/-- Where the access is denied a CSR instruction takes the exception of the check (45 R146). -/
theorem csrTraps_of_exec {s : State} {new : Option Word} (hexec : exec i s = .next (s.csrSsp rd new (encodeWord i)))
    {e : Exc} (hd : s.sspCsrDenied = some e) : ∃ t, exec i s = .next t ∧ InsnTrap s e i t :=
  ⟨_, hexec.trans (congrArg _ (s.csrSsp_of_denied hd rd new _)), s.raiseInsn_wordTrap e _⟩

/-- Where it is allowed it writes the legal value of what it computes, if it writes. -/
theorem csrCompletes_of_exec {new : State → Option Word}
    (hexec : ∀ s, exec i s = .next (s.csrSsp rd (new s) (encodeWord i))) :
    CsrCompletes i rd fun s => (new s).elim s.readSsp s.legalSsp := fun s hd =>
  ⟨_, (hexec s).trans (congrArg _ (State.csrSsp_of_allowed hd rd (new s) _)),
    s.sspAfter_writeX_advance (new s) rd rfl⟩

/-- A set or clear form reads only where its operand field is zero (45 R148 to R152). -/
theorem csrCompletes_of_exec_unlessZero {f : RegIdx} {v : State → Word}
    (hexec : ∀ s, exec i s = .next (s.csrSsp rd (unlessZero f (v s)) (encodeWord i))) :
    CsrCompletes i rd fun s => if f = 0 then s.readSsp else s.legalSsp (v s) := by
  have hvalue (s : State) :
      (unlessZero f (v s)).elim s.readSsp s.legalSsp = if f = 0 then s.readSsp else s.legalSsp (v s) :=
    apply_ite (Option.elim · s.readSsp s.legalSsp) (f = 0) none (some (v s))
  exact funext hvalue ▸ csrCompletes_of_exec hexec

end

/-! ## The CSR instructions of the opcode table -/

/-- Each of the six is the shared operation, with the value its form writes. -/
theorem exec_csrSsp (s : State) {i : Instr} {rd f : RegIdx}
    (hi : i ∈ [Instr.csrrwSsp rd f, .csrrsSsp rd f, .csrrcSsp rd f, .csrrwiSsp rd f, .csrrsiSsp rd f,
      .csrrciSsp rd f]) :
    ∃ new, exec i s = .next (s.csrSsp rd new (encodeWord i)) := by
  simp only [List.mem_cons, List.not_mem_nil, or_false] at hi
  rcases hi with rfl | rfl | rfl | rfl | rfl | rfl <;> exact ⟨_, rfl⟩

/-- Settles O41: in M-mode the check is its own, below it the swap's, and a denied access raises what it names. -/
theorem sspCsrAccessByMode : Obligations.SspCsrAccessByMode := by
  intro s
  refine ⟨State.sspCsrDenied_of_machine,
    fun hp hm => State.sspCsrDenied_of_ssAmoDenied rfl hp (State.ssAmoDenied_of_menvcfgSse_false hp hm),
    fun hm => ?_, fun e hd rd f i hi => ?_⟩
  · obtain ⟨-, hswap, -⟩ := swapEnabledByMode s
    have hS := State.hasS_of_menvcfgSse hm
    obtain ⟨-, -, hmodes⟩ := hswap hS
    obtain ⟨hsupervisor, huser, hguest, hguestUser⟩ := hmodes (State.menvcfgSse_of_hasS hS ▸ hm)
    exact ⟨fun hp hv => State.sspCsrDenied_of_ssAmoDenied hp nofun (hsupervisor hp hv),
      fun hp hv => State.sspCsrDenied_of_ssAmoDenied hp nofun (huser hp hv),
      fun hp hv => State.sspCsrDenied_of_ssAmoDenied hp nofun (hguest hp hv),
      fun hp hv => State.sspCsrDenied_of_ssAmoDenied hp nofun (hguestUser hp hv)⟩
  · obtain ⟨new, hexec⟩ := exec_csrSsp s hi
    exact csrTraps_of_exec hexec hd

/-- Settles O42: the operand is `x[rs1]`; `CSRRW` always writes. -/
theorem csrRegisterFormsComplete : Obligations.CsrRegisterFormsComplete := fun _ rs1 =>
  ⟨csrCompletes_of_exec (new := fun s => some (s.readX rs1)) fun _ => rfl,
    csrCompletes_of_exec_unlessZero fun _ => rfl, csrCompletes_of_exec_unlessZero fun _ => rfl⟩

/-- Settles O43: the operand is the zero-extended immediate; `CSRRWI` always writes. -/
theorem csrImmediateFormsComplete : Obligations.CsrImmediateFormsComplete := fun _ uimm =>
  ⟨csrCompletes_of_exec (new := fun _ => some (zext5 uimm)) fun _ => rfl,
    csrCompletes_of_exec_unlessZero fun _ => rfl, csrCompletes_of_exec_unlessZero fun _ => rfl⟩

end Sys2Proof.Machine
end

section
/-! PROOFS, the family of 60_exceptions.md, part 1: taking an exception. Which mode takes it is decided by one chain of
conditions (`State.trapTarget_eq_m_iff`, `State.trapTarget_of_delegated`); what its
entry then does `State.takeTrap_taken` says. -/

namespace Sys2Proof.Machine

/-! ## Which mode takes an exception (60 R173) -/

section
variable {s : State} {e : Exc}

theorem State.trapTarget_eq_m_iff :
    s.trapTarget e = .m ↔ s.priv = .machine ∨ s.cfg.hasS = false ∨ s.medeleg.getLsbD e.code = false := by
  unfold State.trapTarget
  split
  next hdeleg =>
    simp only [Bool.and_eq_true, bne_iff_ne] at hdeleg
    obtain ⟨⟨hp, hS⟩, hm⟩ := hdeleg
    split <;> simp [hp, hS, hm]
  next hdeleg =>
    simp only [Bool.not_eq_true, Bool.and_eq_false_iff, bne_eq_false_iff_eq, or_assoc] at hdeleg
    exact iff_of_true rfl hdeleg

/-- Once delegated, an exception goes on to VS-mode or not. -/
theorem State.trapTarget_of_delegated (hp : s.priv ≠ .machine) (hS : s.cfg.hasS = true)
    (hm : s.medeleg.getLsbD e.code = true) :
    s.trapTarget e = if s.v && s.hedeleg.getLsbD e.code && !e.neverToVs then .vs else .s := by
  simp [State.trapTarget, hp, hS, hm]

/-- Nothing is delegated from M-mode. -/
theorem State.priv_ne_machine_of_trapTarget {target : Target} (ht : s.trapTarget e = target) (hne : target ≠ .m) :
    s.priv ≠ .machine := fun hp =>
  hne (ht.symm.trans (State.trapTarget_eq_m_iff.2 (.inl hp)))

/-- The second trap value is never due to VS-mode (60 R173). -/
theorem State.trapTarget_ne_vs_of_neverToVs (he : e.neverToVs = true) : s.trapTarget e ≠ .vs := by
  unfold State.trapTarget
  split
  next => simp [he]
  next => exact nofun

end

/-! ## The environment of the handler -/

section
variable {s t : State}

theorem SamePlatform.menvcfgSse (h : SamePlatform s t) : t.menvcfgSse = s.menvcfgSse := by
  obtain ⟨⟨hcfg, -⟩, hmenvcfg, -, -⟩ := h
  simp only [State.menvcfgSse, hcfg, hmenvcfg]

theorem SamePlatform.henvcfgSse (h : SamePlatform s t) : t.henvcfgSse = s.henvcfgSse := by
  have hm := h.menvcfgSse
  obtain ⟨-, -, -, hhenvcfg⟩ := h
  simp only [State.henvcfgSse, hm, hhenvcfg]

/-- `xSSE` is a matter of the platform and the mode (10 R24). -/
theorem SamePlatform.xSSE (h : SamePlatform s t) (hp : t.priv = s.priv) (hv : t.v = s.v) : t.xSSE = s.xSSE := by
  have hm := h.menvcfgSse
  have hh := h.henvcfgSse
  obtain ⟨⟨hcfg, -⟩, -, hsenvcfg, -⟩ := h
  simp only [State.xSSE, State.senvcfgSse, hcfg, hp, hv, hm, hh, hsenvcfg]

theorem NothingWritten.samePlatform (h : NothingWritten s t) : SamePlatform s t := by
  obtain ⟨-, -, -, hplatform⟩ := h
  exact hplatform

end

/-! ## The entry sequence (60 R170) -/

/-- Settles O44: on each of the three grounds the target is M-mode. -/
theorem undelegatedTrapEntersMachineMode : Obligations.UndelegatedTrapEntersMachineMode := by
  intro s e tval hgrounds
  have htaken := s.takeTrap_taken e tval
  rw [TrapTaken, State.trapTarget_eq_m_iff.2 hgrounds] at htaken
  obtain ⟨hregs, hstatus, hpriv, hv, hpc, -⟩ := htaken
  exact ⟨hregs, hstatus, hpriv, hv, hpc, State.xSSE_of_machine hpriv, s.takeTrap_nothingWritten e tval⟩

/-- Settles O45: on each of the three grounds a delegated exception goes no further than S-mode. -/
theorem delegatedTrapEntersSupervisorMode : Obligations.DelegatedTrapEntersSupervisorMode := by
  intro s e tval hp hS hm hgrounds
  have htarget : s.trapTarget e = .s := by
    rw [State.trapTarget_of_delegated hp hS hm]
    rcases hgrounds with h | h | h <;> simp [h]
  have htaken := s.takeTrap_taken e tval
  have hframe := s.takeTrap_nothingWritten e tval
  rw [TrapTaken, htarget] at htaken
  obtain ⟨hregs, hstatus, hspv, hpriv, hv, hpc, -⟩ := htaken
  refine ⟨hregs, hstatus, hspv, hpriv, hv, hpc, ?_, hframe⟩
  rw [State.xSSE_of_supervisor (s.takeTrap_cfg e tval ▸ hS) hpriv, hv, hframe.samePlatform.menvcfgSse]
  rfl

/-- Settles O46: delegated twice, the exception goes on to VS-mode. -/
theorem twiceDelegatedTrapEntersGuest : Obligations.TwiceDelegatedTrapEntersGuest := by
  intro s e tval hp hS hm hv hh hnever
  have htarget : s.trapTarget e = .vs := by
    rw [State.trapTarget_of_delegated hp hS hm, hv, hh, hnever]
    rfl
  have htaken := s.takeTrap_taken e tval
  have hframe := s.takeTrap_nothingWritten e tval
  rw [TrapTaken, htarget] at htaken
  obtain ⟨hregs, hstatus, hpriv, hv', hpc, -⟩ := htaken
  refine ⟨hregs, hstatus, hpriv, hv', hpc, ?_, hframe⟩
  rw [State.xSSE_of_supervisor (s.takeTrap_cfg e tval ▸ hS) hpriv, hv', hframe.samePlatform.henvcfgSse]
  rfl

/-! ## The second trap value (60 R169) -/

section
variable {s : State} {e : Exc}

theorem State.noteGuestAddress_of_not_guest (he : e.isGuestPageFault = false) (target : Target) :
    s.noteGuestAddress e target = s := by
  simp only [State.noteGuestAddress, he, Bool.false_eq_true, if_false]

theorem State.noteGuestAddress_m (he : e.isGuestPageFault = true) :
    s.noteGuestAddress e .m =
      { s with mtval2 := s.trunc (Config.guestTrapValue s.draws), draws := s.draws + 1 } := by
  simp only [State.noteGuestAddress, he, if_true]

theorem State.noteGuestAddress_s (he : e.isGuestPageFault = true) :
    s.noteGuestAddress e .s =
      { s with htval := s.trunc (Config.guestTrapValue s.draws), draws := s.draws + 1 } := by
  simp only [State.noteGuestAddress, he, if_true]

theorem Exc.neverToVs_of_guest (he : e.isGuestPageFault = true) : e.neverToVs = true := by
  rw [Exc.neverToVs, he, Bool.true_or]

end

/-- Settles O47: the entry sequence writes neither register, and the note of a guest-page fault writes the one of its
target. -/
theorem secondTrapValueOnlyForGuestFaults : Obligations.SecondTrapValueOnlyForGuestFaults := by
  intro s e tval
  refine ⟨fun he => ?_, fun he ht => ?_, fun he ht => ?_, fun he =>
    State.trapTarget_ne_vs_of_neverToVs (Exc.neverToVs_of_guest he)⟩
  · simp only [State.takeTrap, State.noteGuestAddress_of_not_guest he]
    cases s.trapTarget e <;> exact ⟨rfl, rfl, rfl⟩
  · rw [State.takeTrap, ht, State.noteGuestAddress_m he]
    exact ⟨fitsIn_trunc s _, rfl⟩
  · rw [State.takeTrap, ht, State.noteGuestAddress_s he]
    exact ⟨fitsIn_trunc s _, rfl⟩

end Sys2Proof.Machine
end

section
/-! PROOFS, the family of 60_exceptions.md, part 2: returning from a trap. A trap's entry saves what the return of the
mode that took it restores, so that the two compose to nothing but a changed trap state. -/

namespace Sys2Proof.Machine

/-! ## Where a return may run (log entry 35) -/

section
variable {s : State}

theorem State.mret_of_machine (hp : s.priv = .machine) : s.mret = s.returnM := if_pos hp

theorem State.mret_of_not_machine (hp : s.priv ≠ .machine) : s.mret = s.raiseInsn .illegalInstruction wordMret :=
  if_neg hp

theorem State.sretDenied_illegal (h : s.cfg.hasS = false ∨ s.priv = .user ∧ s.v = false) :
    s.sretDenied = some .illegalInstruction := by
  unfold State.sretDenied
  rcases h with hS | ⟨hp, hv⟩
  · simp [hS]
  · simp [hp, hv]

theorem State.sretDenied_virtual (hS : s.cfg.hasS = true) (hp : s.priv = .user) (hv : s.v = true) :
    s.sretDenied = some .virtualInstruction := by
  simp [State.sretDenied, hS, hp, hv]

theorem State.sretDenied_of_ne_user (hS : s.cfg.hasS = true) (hp : s.priv ≠ .user) : s.sretDenied = none := by
  unfold State.sretDenied
  cases h : s.priv with
  | user => contradiction
  | supervisor | machine => simp [hS]

theorem State.sret_of_denied {e : Exc} (hd : s.sretDenied = some e) : s.sret = s.raiseInsn e wordSret := by
  simp only [State.sret, hd]

theorem State.sret_of_host (hd : s.sretDenied = none) (hv : s.v = false) : s.sret = s.returnS := by
  simp only [State.sret, hd, hv, Bool.false_eq_true, if_false]

theorem State.sret_of_guest (hd : s.sretDenied = none) (hv : s.v = true) : s.sret = s.returnVs := by
  simp only [State.sret, hd, hv, if_true]

end

/-! ## What a return leaves alone -/

theorem State.returnM_nothingWritten (s : State) : NothingWritten s s.returnM :=
  ⟨fun _ => rfl, rfl, fun _ => rfl, .refl s⟩

theorem State.returnS_nothingWritten (s : State) : NothingWritten s s.returnS :=
  ⟨fun _ => rfl, rfl, fun _ => rfl, .refl s⟩

theorem State.returnVs_nothingWritten (s : State) : NothingWritten s s.returnVs :=
  ⟨fun _ => rfl, rfl, fun _ => rfl, .refl s⟩

theorem NothingWritten.trans {s t u : State} (h : NothingWritten s t) (h' : NothingWritten t u) :
    NothingWritten s u := by
  obtain ⟨hregs, hssp, hmem, hplatform⟩ := h
  obtain ⟨hregs', hssp', hmem', hplatform'⟩ := h'
  exact ⟨fun r => (hregs' r).trans (hregs r), hssp'.trans hssp, fun a => (hmem' a).trans (hmem a),
    hplatform.trans hplatform'⟩

/-! ## What the entry saves of the mode, the return restores -/

section
variable {s : State}

/-- `SPP` holds every mode that can be delegated from. -/
theorem privOfSpp_beq_supervisor {p : Priv} (hp : p ≠ .machine) : privOfSpp (p == .supervisor) = p := by
  cases p
  case user => rfl
  case supervisor => rfl
  case machine => contradiction

/-- `V` is 0 without the H extension, where no saved `V` is kept. -/
theorem State.ModeLegal.saved_v (h : s.ModeLegal) (old : Bool) :
    (s.cfg.hasH && if s.cfg.hasH then s.v else old) = s.v := by
  obtain ⟨-, hvH, -⟩ := h
  cases hH : s.cfg.hasH
  · cases hv : s.v
    · rfl
    · exact absurd (hH.symm.trans (hvH hv)) nofun
  · rfl

/-- `V` is 0 in M-mode, where the return from M-mode does not ask `MPV` (log entry 22). -/
theorem State.ModeLegal.v_below_machine (h : s.ModeLegal) : (s.priv != .machine && s.v) = s.v := by
  obtain ⟨hmv, -⟩ := h
  by_cases hp : s.priv = .machine
  · rw [hmv hp, Bool.and_false]
  · simp [hp]

end

/-! ## A trap and the return from it -/

/-- `u`, after a trap taken in `s` and the return from it, runs on where and as `s` would have (60 R171, 41 R118). -/
def TrapUndone (s u : State) : Prop :=
  u.pc = s.pc ∧ u.priv = s.priv ∧ u.v = s.v ∧ u.mstatus.mie = s.mstatus.mie ∧ u.mstatus.sie = s.mstatus.sie ∧
    u.vsstatus.sie = s.vsstatus.sie ∧ u.xSSE = s.xSSE ∧ NothingWritten s u

section
variable {s : State} {e : Exc} (tval : Word)

/-- A return writes nothing, so what it restores is `pc`, the mode and the enables, and `xSSE` with the mode. -/
theorem TrapUndone.of_return {u : State} (hu : NothingWritten (s.takeTrap e tval) u) (hpc : u.pc = s.pc)
    (hp : u.priv = s.priv) (hv : u.v = s.v) (hmie : u.mstatus.mie = s.mstatus.mie)
    (hsie : u.mstatus.sie = s.mstatus.sie) (hvsie : u.vsstatus.sie = s.vsstatus.sie) : TrapUndone s u :=
  have hframe := (s.takeTrap_nothingWritten e tval).trans hu
  ⟨hpc, hp, hv, hmie, hsie, hvsie, hframe.samePlatform.xSSE hp hv, hframe⟩

theorem trapUndone_of_m (hmode : s.ModeLegal) (ht : s.trapTarget e = .m) :
    TrapUndone s ((s.takeTrap e tval).execBase .mret) := by
  have htaken := s.takeTrap_taken e tval
  rw [TrapTaken, ht] at htaken
  obtain ⟨hregs, hstatus, hpriv, -, -, -, -, -, hvsstatus⟩ := htaken
  rw [show (s.takeTrap e tval).execBase .mret = _ from State.mret_of_machine hpriv]
  refine .of_return tval (State.returnM_nothingWritten _) ?_ ?_ ?virt ?_ ?_ ?_
  case virt =>
    simp only [State.returnM_v, State.takeTrap_cfg, hstatus, Bool.and_assoc, hmode.saved_v, hmode.v_below_machine]
  all_goals simp [hregs, hstatus, hvsstatus]

/-- A handler in S- or VS-mode may run `SRET`. -/
theorem State.takeTrap_sretDenied (hS : s.cfg.hasS = true) (hpriv : (s.takeTrap e tval).priv = .supervisor) :
    (s.takeTrap e tval).sretDenied = none :=
  State.sretDenied_of_ne_user (s.takeTrap_cfg e tval ▸ hS) (hpriv ▸ nofun)

theorem trapUndone_of_s (hmode : s.ModeLegal) (ht : s.trapTarget e = .s) :
    TrapUndone s ((s.takeTrap e tval).execBase .sret) := by
  have hS : s.cfg.hasS = true := by simpa [ht] using s.trapTarget_cases e
  have htaken := s.takeTrap_taken e tval
  rw [TrapTaken, ht] at htaken
  obtain ⟨hregs, hstatus, hspv, hpriv, hv, -, -, -, hvsstatus⟩ := htaken
  rw [show (s.takeTrap e tval).execBase .sret = _ from
    State.sret_of_host (State.takeTrap_sretDenied tval hS hpriv) hv]
  refine .of_return tval (State.returnS_nothingWritten _) ?_ ?priv ?virt ?_ ?_ ?_
  case priv =>
    rw [State.returnS_priv, hstatus]
    exact privOfSpp_beq_supervisor (State.priv_ne_machine_of_trapTarget ht nofun)
  case virt => rw [State.returnS_v, State.takeTrap_cfg, hspv, hmode.saved_v]
  all_goals simp [hregs, hstatus, hvsstatus]

theorem trapUndone_of_vs (ht : s.trapTarget e = .vs) : TrapUndone s ((s.takeTrap e tval).execBase .sret) := by
  have ⟨hS, hguest⟩ : s.cfg.hasS = true ∧ s.v = true := by simpa [ht] using s.trapTarget_cases e
  have htaken := s.takeTrap_taken e tval
  rw [TrapTaken, ht] at htaken
  obtain ⟨hregs, hvsstatus, hpriv, hv, -, -, -, hstatus, -⟩ := htaken
  rw [show (s.takeTrap e tval).execBase .sret = _ from
    State.sret_of_guest (State.takeTrap_sretDenied tval hS hpriv) hv]
  refine .of_return tval (State.returnVs_nothingWritten _) ?_ ?priv ?_ ?_ ?_ ?_
  case priv =>
    rw [State.returnVs_priv, hvsstatus]
    exact privOfSpp_beq_supervisor (State.priv_ne_machine_of_trapTarget ht nofun)
  all_goals simp [hregs, hguest, hstatus, hvsstatus]

end

/-- Settles O48: the returns by where they may run, and a trap by the mode that takes it. -/
theorem returnUndoesTrapEntry : Obligations.ReturnUndoesTrapEntry := by
  refine ⟨fun s t ht => ⟨fun hp => ?_, fun hp => ?_⟩,
    fun s t ht => ⟨fun h => ?_, fun hS hp hv => ?_, fun hS hp => ?_⟩, fun s e tval t u hlegal ht hu => ?_⟩
  · cases ht.trans (State.mret_of_not_machine hp)
    exact s.raiseInsn_wordTrap _ wordMret
  · cases ht.trans (State.mret_of_machine hp)
    exact ⟨rfl, rfl, by simp [and_assoc], rfl, s.returnM_nothingWritten, .refl _⟩
  · cases ht.trans (State.sret_of_denied (State.sretDenied_illegal h))
    exact s.raiseInsn_wordTrap _ wordSret
  · cases ht.trans (State.sret_of_denied (State.sretDenied_virtual hS hp hv))
    exact s.raiseInsn_wordTrap _ wordSret
  · have hallowed := State.sretDenied_of_ne_user hS hp
    by_cases hv : s.v = true
    · cases ht.trans (State.sret_of_guest hallowed hv)
      exact ⟨s.returnVs_nothingWritten, fun hv' => absurd (hv.symm.trans hv') nofun,
        fun _ => ⟨rfl, rfl, rfl, rfl, rfl, hv.symm, rfl, rfl, rfl, rfl, rfl, rfl, rfl, rfl, rfl⟩⟩
    · cases ht.trans (State.sret_of_host hallowed (Bool.eq_false_of_not_eq_true hv))
      exact ⟨s.returnS_nothingWritten, fun _ => ⟨rfl, rfl, rfl, rfl, rfl, .refl _⟩, fun hv' => absurd hv' hv⟩
  · obtain ⟨-, hmode, -⟩ := hlegal
    subst ht hu
    cases htarget : s.trapTarget e with
    | m => exact trapUndone_of_m tval hmode htarget
    | s => exact trapUndone_of_s tval hmode htarget
    | vs => exact trapUndone_of_vs tval htarget

end Sys2Proof.Machine
end

section
/-! PROOFS, the family of 60_exceptions.md, part 3: the May-Be-Operations never raise an illegal- or virtual-instruction
exception, since none of them has an enabling check and no fault of a shadow-stack access is one; and every instruction
of the opcode table answers a next state. -/

namespace Sys2Proof.Machine

/-- An instruction of `n` bytes has completed, or has taken an exception other than those two with nothing written. -/
def CompletesOrFaults (s : State) (n : Nat) (t : State) : Prop :=
  (t.pc = s.pcAfter n ∧ SameTrapState s t) ∨
    ∃ e tval, e ≠ .illegalInstruction ∧ e ≠ .virtualInstruction ∧ NothingWritten s t ∧ TrapTaken s e tval t

/-- No fault of a shadow-stack access is an illegal- or virtual-instruction exception (20 R62). -/
theorem State.ne_insn_of_mem_ssFaults {s : State} {op : SsOp} {va : Word} {n : Nat} {e : Exc}
    (he : e ∈ s.ssFaults op va n) : e ≠ .illegalInstruction ∧ e ≠ .virtualInstruction := by
  obtain ⟨-, htyped⟩ := shadowStackFaultsAreStoreTyped
  obtain ⟨hmem, -⟩ := htyped s op va n
  rcases hmem e he with rfl | rfl | rfl | ⟨rfl, -⟩ | ⟨rfl, -⟩ <;> exact ⟨nofun, nofun⟩

section
variable {s fallback : State} {n : Nat}

theorem CompletesOrFaults.withSsAccess {op : SsOp} {va : Word} {k : Nat} {go : Nat → State}
    (hgo : ∀ pa, CompletesOrFaults s n (go pa)) : CompletesOrFaults s n (s.withSsAccess op va k go) := by
  rcases s.withSsAccess_cases op va k go with ⟨-, h⟩ | ⟨e, es, hfaults, h⟩
  · exact h ▸ hgo _
  · obtain ⟨hillegal, hvirtual⟩ := State.ne_insn_of_mem_ssFaults (hfaults ▸ s.reported_mem e es)
    obtain ⟨hframe, htaken⟩ := s.raiseSs_addrTrap e es va
    exact h ▸ .inr ⟨_, _, hillegal, hvirtual, hframe, htaken⟩

theorem CompletesOrFaults.ssPush (src : RegIdx) (hf : CompletesOrFaults s n fallback) :
    CompletesOrFaults s n (s.ssPush src n fallback) := by
  unfold State.ssPush
  split
  · exact .withSsAccess fun _ => .inl ⟨rfl, .refl s⟩
  · exact hf

theorem CompletesOrFaults.ssPopChk (src : RegIdx) (hf : CompletesOrFaults s n fallback) :
    CompletesOrFaults s n (s.ssPopChk src n fallback) := by
  unfold State.ssPopChk
  split
  · refine .withSsAccess fun pa => ?_
    split
    · exact .inl ⟨rfl, .refl s⟩
    · exact .inr ⟨.softwareCheck, 3, nofun, nofun, s.takeTrap_nothingWritten .softwareCheck 3,
        s.takeTrap_taken .softwareCheck 3⟩
  · exact hf

end

theorem State.zimop_completes (s : State) (rd : RegIdx) : CompletesOrFaults s 4 (s.zimop rd) := .inl ⟨rfl, .refl s⟩

theorem State.zcmop_completes (s : State) : CompletesOrFaults s 2 s.zcmop := .inl ⟨rfl, .refl s⟩

/-- Settles O57: the pushes and pops fall back to the other May-Be-Operations, which only complete. -/
theorem mopEncodingsAreNeverIllegal : Obligations.MopEncodingsAreNeverIllegal := by
  intro i s t h hi
  change CompletesOrFaults s (ilen i) t
  simp only [List.mem_cons, List.not_mem_nil, or_false] at hi
  rcases hi with (rfl | rfl | rfl | rfl | rfl | rfl | rfl | rfl) | ⟨rd, rfl⟩ | ⟨rd, rs1, rs2, rfl⟩ | ⟨rd, rs1, rfl⟩
  case inr.inl => cases (exec_ssrdp s rd).symm.trans h; exact .inl ⟨rfl, .refl s⟩
  all_goals cases h
  · exact .ssPush 1 (s.zimop_completes 0)
  · exact .ssPush 5 (s.zimop_completes 0)
  · exact .ssPush 1 s.zcmop_completes
  · exact .ssPopChk 1 (s.zimop_completes 0)
  · exact .ssPopChk 5 (s.zimop_completes 0)
  · exact .ssPopChk 5 s.zcmop_completes
  · exact s.zcmop_completes
  · exact s.zcmop_completes
  · exact s.zimop_completes rd
  · exact s.zimop_completes rd

/-- Settles O58: each meaning is a next state as it stands, the doubleword swap on each width. -/
theorem execNeverStops : Obligations.ExecNeverStops := by
  intro i s
  cases i
  case ssamoswapD rd rs2 rs1 aq rl =>
    cases hx : s.cfg.xlen
    case rv32 =>
      obtain ⟨t, hexec, -⟩ := doublewordSwapIsIllegalOnRv32 s rd rs2 rs1 aq rl hx
      exact ⟨t, hexec⟩
    case rv64 => exact ⟨_, exec_ssamoswapD hx rd rs2 rs1 aq rl⟩
  all_goals exact ⟨_, rfl⟩

end Sys2Proof.Machine
end

section
/-! PROOFS, the family of 70_reset_and_hazards.md: the state after reset. -/

namespace Sys2Proof.Machine

open Sys2Proof.Config

/-! ## Values at reset -/

theorem fitsIn_iff_toNat_lt (x : Xlen) (w : Word) : FitsIn x w ↔ w.toNat < 2 ^ xlenBits x := by
  rw [FitsIn, ← BitVec.toNat_inj, truncTo_toNat]
  exact Nat.mod_eq_iff_lt (by positivity)

theorem fitsIn_zero (x : Xlen) : FitsIn x 0 := truncTo_zero x

theorem trapRegs_legal_zero (x : Xlen) : TrapRegs.Legal x ⟨0, 0, 0, 0⟩ :=
  ⟨⟨fitsIn_zero x, rfl⟩, fitsIn_zero x, fitsIn_zero x⟩

/-- Well-formed parameters put the reset vector where a `pc` may be (70 R191; log entry 34). -/
theorem pcFits_resetVector {p : Params} (hp : p.Wf) : PcFits p.xlen p.resetVector := by
  obtain ⟨-, -, hlt, heven⟩ := hp
  constructor
  · rw [fitsIn_iff_toNat_lt]
    cases hx : p.xlen <;> simpa only [hx, xlenBits] using hlt
  · rw [BitVec.getLsbD, Nat.testBit_zero, heven]
    rfl

theorem recommended_wf : recommended.Wf := by decide

/-- Zero is a legal `ssp` whatever bits are read-only zero (10 R13). -/
theorem State.legalSsp_zero (s : State) : s.legalSsp 0 = 0 := by
  rw [State.legalSsp, State.trunc, truncTo_zero]
  exact BitVec.zero_and

theorem State.resetWith_readSsp (p : Params) : (State.resetWith p).readSsp = 0 := State.legalSsp_zero _

/-! ## The invariant at reset -/

/-- Every integer register holds zero (log entry 3). -/
theorem State.resetWith_regsLegal (p : Params) : (State.resetWith p).RegsLegal := by
  have hx (r : Fin 32) : (State.resetWith p).x[r] = 0 := Vector.getElem_replicate r.isLt
  refine ⟨hx 0, fun r => ?_⟩
  rw [hx r]
  exact fitsIn_zero _

/-- Of the invariant only the `pc` and the parameters themselves need the parameters to be well formed. -/
theorem State.resetWith_legal {p : Params} (hp : p.Wf) : (State.resetWith p).Legal :=
  have hmode : (State.resetWith p).ModeLegal := ⟨fun _ => rfl, nofun, nofun⟩
  have hsaved : (State.resetWith p).SavedModeLegal := ⟨nofun, nofun, nofun⟩
  have htrap : TrapRegs.Legal p.xlen ⟨0, 0, 0, 0⟩ := trapRegs_legal_zero p.xlen
  ⟨hp, hmode, hsaved, State.resetWith_regsLegal p, State.legalSsp_zero _, pcFits_resetVector hp, htrap, htrap, htrap,
    fitsIn_zero _, fitsIn_zero _, State.resetWith_mem_wf p⟩

/-- Settles O50: the recommended parameters are well formed, so their reset state is one case of the general one. -/
theorem resetIsLegal : Obligations.ResetIsLegal :=
  ⟨State.resetWith_legal recommended_wf, fun _ hp => State.resetWith_legal hp⟩

/-- Settles O51: `xSSE` = 0 because reset is to M-mode (R190), and `ssp` reads zero. -/
theorem resetStartsInMachineMode : Obligations.ResetStartsInMachineMode := by
  intro p
  have hssp (k : Nat) : (State.resetWith p).readSsp.getLsbD k = false := by
    rw [State.resetWith_readSsp]
    exact BitVec.getLsbD_zero
  exact ⟨rfl, rfl, rfl, rfl, State.xSSE_of_machine rfl, hssp 0, hssp 1, fun _ => hssp 2⟩

end Sys2Proof.Machine
end
